-- ==== Sys2Proof/Word.lean ====
section
/-! DEFINITION. The word types of the hardware: registers and the command word, with the widths the spec gives
them (10_state.md section 1, 30_encoding.md R41). -/

namespace Sys2Proof

/-- One command, `CMD[71:0]` (R41). -/
abbrev CommandWord := BitVec 72

/-- A timestamp or a duration in ticks: `TS_W` = 64 bits (R5). It is read as an unsigned natural (R43), and sums
of two are formed in unbounded naturals (R7). -/
abbrev Timestamp := BitVec 64

/-- The shift register `SR`, and a frame value `v` (R10, R80). -/
abbrev FrameBits := BitVec 34

/-- The bit counter `CNT` and the register `EXPECTED_WIDTH` (R10, R18). -/
abbrev BitCount := BitVec 6

end Sys2Proof
end

