-- ==== Sys2Proof/Config.lean ====
section
/-! DEFINITION. The implementation parameters of 00_scope.md R5: the four configuration registers as one record,
the values `State.reset` gives them, and the open reader type string. -/

namespace Sys2Proof

/-- The configuration registers, static after start-up (R18). -/
structure Configuration where
  /-- `EXPECTED_WIDTH`, written `W`. -/
  expectedWidth : BitCount
  /-- `BIT_TIMEOUT`, in ticks. -/
  bitTimeout : Timestamp
  /-- `DEBOUNCE_INTERVAL`, in ticks; 0 disables the guard. -/
  debounceInterval : Timestamp
  /-- `DEGRADED_MODE`: true (1) = degraded frame, false (0) = UnsupportedFormat. -/
  degradedMode : Bool
  deriving DecidableEq, Repr

namespace Config

/-- `MAX_WIDTH` (R5): fixed. -/
def maxWidth : Nat := 34

/-- `TS_W` (R5): fixed. -/
def tsWidth : Nat := 64

/-- `READER_TYPE` (R5, R120): a fixed string the spec does not give (N6, U13). No body: no proof can see it (log 9). -/
opaque readerType : String

/-- The configuration `State.reset` holds. `DEGRADED_MODE` = 1 is the spec's value (R5). The other three are open
in the spec; DESIGN CHOICE (log 1, unsafe): those of the spec's own programs P1 to P3 (95_test_vectors.md). -/
def startup : Configuration where
  expectedWidth := 26
  bitTimeout := 500
  debounceInterval := 0
  degradedMode := true

end Config

end Sys2Proof
end

