-- ==== Sys2Proof/Syntax.lean ====
section
/-! DEFINITION. The six commands (30_encoding.md R40), their enumerated operands (R41), and the lines of the
assembler notation with its pseudo-commands (R51). -/

namespace Sys2Proof

/-- The source's Bit, {ZERO, ONE}. -/
inductive Bit
  | zero
  | one
  deriving DecidableEq, Repr

/-- An input line, {DATA0, DATA1}. -/
inductive Line
  | data0
  | data1
  deriving DecidableEq, Repr

/-- The signal level an edge goes to, {LOW, HIGH}. -/
inductive Level
  | low
  | high
  deriving DecidableEq, Repr

/-- The commands: four primitives and two transactions (R40). Every operand has the width its field has in the
command word, so every term is a command some word encodes. -/
inductive Instr
  /-- `append(bit, now)`: R61. -/
  | append (bit : Bit) (now : Timestamp)
  /-- `check_timeout(now, BIT_TIMEOUT)`: R64. -/
  | checkTimeout (now : Timestamp)
  /-- `reset()`: R67. -/
  | reset
  /-- `decode(buffer, W)`: R88. -/
  | decode
  /-- The edge callback `(line_id, signal_level, timestamp)`: R104. -/
  | edge (line : Line) (level : Level) (ts : Timestamp)
  /-- The periodic tick: R106. -/
  | tick (now : Timestamp)
  deriving DecidableEq, Repr

/-- One line of the assembler notation (R51). `<t>` is a decimal number of ticks, of any size as written; whether it
fits a command word is `AsmLine.wf`. -/
inductive AsmLine
  | append (bit : Bit) (t : Nat)
  | checkTimeout (t : Nat)
  | reset
  | decode
  | edge (line : Line) (level : Level) (t : Nat)
  | tick (t : Nat)
  /-- `PULSE0 @<t>`, a ZERO bit. -/
  | pulse0 (t : Nat)
  /-- `PULSE1 @<t>`, a ONE bit. -/
  | pulse1 (t : Nat)
  /-- `BITS "<string>" @<t0> +<d>`: one pulse per character, at `t0`, `t0 + d`, … -/
  | bits (string : List Bit) (t0 d : Nat)
  deriving DecidableEq, Repr

end Sys2Proof
end

