-- ==== Sys2Proof/WellFormed.lean ====
section
/-! DEFINITION. Well-formedness: of a command word and of a written assembler line (that of a configuration is
`configLegal`, Machine/Flags.lean). `Instr` needs no check, since its operand types have exactly the widths of the
fields of the command word. -/

namespace Sys2Proof

/-- The word is a command: its `op` is one of 0 to 5 (R40, R48). -/
def CommandWord.wf (w : CommandWord) : Bool :=
  decide ((w.extractLsb' 68 4).toNat < 6)

/-- The word as an assembler writes it: a command whose `rsv` and whose unused fields are all 0 (R41). -/
def CommandWord.canonical (w : CommandWord) : Bool :=
  w.wf && w.extractLsb' 66 2 == 0 &&
    match (w.extractLsb' 68 4).toNat with
    | 0 => !w.getLsbD 64
    | 4 => true
    | 1 | 5 => !w.getLsbD 65 && !w.getLsbD 64
    | _ => !w.getLsbD 65 && !w.getLsbD 64 && w.extractLsb' 0 64 == 0

/-- A time that a command word can carry (U11: a larger one cannot be written). -/
def timeFits (t : Nat) : Bool := decide (t < 2 ^ Config.tsWidth)

/-- The times of an assembler line fit the command words it stands for (R51, U11). -/
def AsmLine.wf : AsmLine → Bool
  | .append _ t => timeFits t
  | .checkTimeout t => timeFits t
  | .reset => true
  | .decode => true
  | .edge _ _ t => timeFits t
  | .tick t => timeFits t
  | .pulse0 t => timeFits t
  | .pulse1 t => timeFits t
  | .bits s t0 d => s.isEmpty || timeFits (t0 + (s.length - 1) * d)

end Sys2Proof
end

