-- ==== Sys2Proof/Decode.lean ====
section
/-! DEFINITION. From command words to commands (30_encoding.md R41 to R43, R48) and back, the written hexadecimal
form of a word (R41), and the assembler notation with its pseudo-commands (R51). -/

namespace Sys2Proof

/-! ### Fields of the command word (R41) -/

/-- `op` = CMD[71:68]. -/
def cmdOp (w : CommandWord) : BitVec 4 := w.extractLsb' 68 4

/-- `rsv` = CMD[67:66]: ignored. -/
def cmdRsv (w : CommandWord) : BitVec 2 := w.extractLsb' 66 2

/-- `a` = CMD[65]. -/
def cmdA (w : CommandWord) : Bool := w.getLsbD 65

/-- `b` = CMD[64]. -/
def cmdB (w : CommandWord) : Bool := w.getLsbD 64

/-- `ts` = CMD[63:0], unsigned, not extended and not scaled (R43). -/
def cmdTs (w : CommandWord) : Timestamp := w.extractLsb' 0 64

/-! ### Codes of the enumerations (R41: ZERO, DATA0, LOW = 0 and ONE, DATA1, HIGH = 1) -/

def Bit.code : Bit → Bool
  | .zero => false
  | .one => true

def Bit.ofCode : Bool → Bit
  | false => .zero
  | true => .one

def Line.code : Line → Bool
  | .data0 => false
  | .data1 => true

def Line.ofCode : Bool → Line
  | false => .data0
  | true => .data1

def Level.code : Level → Bool
  | .low => false
  | .high => true

def Level.ofCode : Bool → Level
  | false => .low
  | true => .high

/-! ### The decoder -/

/-- Why a word is no command. -/
inductive DecodeError
  /-- Command numbers 6 to 15 are reserved (R48, U2). -/
  | reservedCommand (op : BitVec 4)
  deriving DecidableEq, Repr

/-- The command a word stands for. It looks at `op` only, then at the fields that command uses (R42). -/
def decodeWord (w : CommandWord) : Except DecodeError Instr :=
  match (cmdOp w).toNat with
  | 0 => .ok (.append (Bit.ofCode (cmdA w)) (cmdTs w))
  | 1 => .ok (.checkTimeout (cmdTs w))
  | 2 => .ok .reset
  | 3 => .ok .decode
  | 4 => .ok (.edge (Line.ofCode (cmdA w)) (Level.ofCode (cmdB w)) (cmdTs w))
  | 5 => .ok (.tick (cmdTs w))
  | _ => .error (.reservedCommand (cmdOp w))

/-! ### The encoder -/

/-- The command number of R40. -/
def Instr.opcode : Instr → BitVec 4
  | .append _ _ => 0
  | .checkTimeout _ => 1
  | .reset => 2
  | .decode => 3
  | .edge _ _ _ => 4
  | .tick _ => 5

/-- A command word from its fields, each at its place, `rsv` written 0 (R41). -/
def packCommand (op : BitVec 4) (a b : Bool) (ts : Timestamp) : CommandWord :=
  (op.setWidth 72 <<< 68) ||| ((BitVec.ofBool a).setWidth 72 <<< 65) |||
    ((BitVec.ofBool b).setWidth 72 <<< 64) ||| ts.setWidth 72

/-- The word an assembler writes: fields the command does not use are 0 (R41). -/
def encode (i : Instr) : CommandWord :=
  match i with
  | .append bit now => packCommand i.opcode bit.code false now
  | .checkTimeout now => packCommand i.opcode false false now
  | .reset => packCommand i.opcode false false 0
  | .decode => packCommand i.opcode false false 0
  | .edge line level ts => packCommand i.opcode line.code level.code ts
  | .tick now => packCommand i.opcode false false now

/-! ### The host's view of a row of the opcode table -/

/-- The command word whose low `nbits` bits are `w`, the others 0. The table numbers the bits of CMD as the spec does:
bit 0 is CMD[0], bit 71 is CMD[71]. -/
def tableWord (nbits w : Nat) : CommandWord := BitVec.ofNat 72 (w % 2 ^ nbits)

/-- The command the decoder reads from the word whose bits are `w`. -/
def decodeTableWord (nbits w : Nat) : Option Instr :=
  match decodeWord (tableWord nbits w) with
  | .ok i => some i
  | .error _ => none

/-! ### Hexadecimal digits (R41, R83) -/

/-- `0123456789ABCDEF` (R83: uppercase). -/
def hexAlphabet : List Char :=
  ['0', '1', '2', '3', '4', '5', '6', '7', '8', '9', 'A', 'B', 'C', 'D', 'E', 'F']

/-- The character of a nibble: the alphabet's at index = nibble value. -/
def hexDigit (nibble : BitVec 4) : Char := hexAlphabet.getD nibble.toNat '0'

/-- `digits` hexadecimal digits, most significant first: digit `j` from the left is the nibble
`(v >> (4 * (digits - 1 - j))) & 0xF`, bits above the top of `v` being 0 (R83). -/
def hexDigits {n : Nat} (digits : Nat) (v : BitVec n) : List Char :=
  (List.range digits).map fun j => hexDigit (v.extractLsb' (4 * (digits - 1 - j)) 4)

/-- The value of a digit character of base 16 or below. -/
def digitValue (c : Char) : Option Nat := hexAlphabet.idxOf? c

/-- A string of digits parsed in a base, the first digit the most significant; `none` if a character is no digit of
that base. -/
def parseBase (base : Nat) (cs : List Char) : Option Nat :=
  cs.foldl (fun acc c =>
    match acc, digitValue c with
    | some n, some d => if d < base then some (base * n + d) else none
    | _, _ => none) (some 0)

/-- The 18 hexadecimal digits of a command word (R41). -/
def hexOfWord (w : CommandWord) : List Char := hexDigits 18 w

/-- The command word of 18 hexadecimal digits; a word is always exactly 72 bits (R42). -/
def wordOfHex (cs : List Char) : Option CommandWord :=
  if cs.length = 18 then (parseBase 16 cs).map (BitVec.ofNat 72) else none

/-! ### The assembler notation (R51) -/

/-- `n` times `t0`, `t0 + d`, `t0 + 2d`, …, one per element. -/
def timed (bits : List Bit) (t0 d : Nat) : List (Bit × Nat) :=
  match bits with
  | [] => []
  | b :: bs => (b, t0) :: timed bs (t0 + d) d

/-- `PULSE0 @t` = `EDGE D0 LOW @t`, a ZERO bit; `PULSE1 @t` = `EDGE D1 LOW @t`, a ONE bit. -/
def pulse (bit : Bit) (t : Nat) : Instr :=
  match bit with
  | .zero => .edge .data0 .low (BitVec.ofNat 64 t)
  | .one => .edge .data1 .low (BitVec.ofNat 64 t)

/-- The commands a line abbreviates, in order. Meant for lines that are well-formed (`AsmLine.wf`). -/
def AsmLine.expand : AsmLine → List Instr
  | .append bit t => [.append bit (BitVec.ofNat 64 t)]
  | .checkTimeout t => [.checkTimeout (BitVec.ofNat 64 t)]
  | .reset => [.reset]
  | .decode => [.decode]
  | .edge line level t => [.edge line level (BitVec.ofNat 64 t)]
  | .tick t => [.tick (BitVec.ofNat 64 t)]
  | .pulse0 t => [pulse .zero t]
  | .pulse1 t => [pulse .one t]
  | .bits s t0 d => (timed s t0 d).map fun p => pulse p.1 p.2

/-- The command words of a line; `none` for a line whose times no word can carry (U11). -/
def AsmLine.words (l : AsmLine) : Option (List CommandWord) :=
  if l.wf then some (l.expand.map encode) else none

/-- The words of a line of text: the runs of characters between spaces. -/
def splitSpaces : List Char → List (List Char)
  | [] => [[]]
  | c :: cs =>
    if c = ' ' then [] :: splitSpaces cs
    else match splitSpaces cs with
      | [] => [[c]]
      | w :: ws => (c :: w) :: ws

/-- A decimal number: at least one digit, nothing else. -/
def parseDecimal (cs : List Char) : Option Nat :=
  if cs.isEmpty then none else parseBase 10 cs

/-- `<prefix char><t>` with `<t>` decimal. -/
def parseMarked (mark : Char) : List Char → Option Nat
  | [] => none
  | c :: cs => if c = mark then parseDecimal cs else none

/-- One bit, `0` or `1`. -/
def parseBit (c : Char) : Option Bit :=
  if c = '0' then some .zero else if c = '1' then some .one else none

/-- A string of bits between double quotes. -/
def parseQuotedBits : List Char → Option (List Bit)
  | [] => none
  | q :: cs =>
    if q = '"' ∧ cs.getLast? = some '"' then cs.dropLast.mapM parseBit else none

def parseLineName (cs : List Char) : Option Line :=
  if cs = ['D', '0'] then some .data0 else if cs = ['D', '1'] then some .data1 else none

def parseLevel (cs : List Char) : Option Level :=
  if cs = ['L', 'O', 'W'] then some .low
  else if cs = ['H', 'I', 'G', 'H'] then some .high else none

/-- The lines with one operand `@<t>`, by keyword. -/
def parseTimedKeyword (kw : List Char) (t : Nat) : Option AsmLine :=
  if kw = ['C', 'H', 'E', 'C', 'K', '_', 'T', 'I', 'M', 'E', 'O', 'U', 'T'] then some (.checkTimeout t)
  else if kw = ['T', 'I', 'C', 'K'] then some (.tick t)
  else if kw = ['P', 'U', 'L', 'S', 'E', '0'] then some (.pulse0 t)
  else if kw = ['P', 'U', 'L', 'S', 'E', '1'] then some (.pulse1 t)
  else none

/-- A line of the notation from its space-separated words. -/
def parseTokens : List (List Char) → Option AsmLine
  | [kw] =>
    if kw = ['R', 'E', 'S', 'E', 'T'] then some .reset
    else if kw = ['D', 'E', 'C', 'O', 'D', 'E'] then some .decode
    else none
  | [kw, t] => (parseMarked '@' t).bind (parseTimedKeyword kw)
  | [kw, x, t] =>
    if kw = ['A', 'P', 'P', 'E', 'N', 'D'] then
      match x with
      | [c] => (parseBit c).bind fun bit => (parseMarked '@' t).map (.append bit)
      | _ => none
    else none
  | [kw, x, y, z] =>
    if kw = ['E', 'D', 'G', 'E'] then
      (parseLineName x).bind fun line => (parseLevel y).bind fun level =>
        (parseMarked '@' z).map (.edge line level)
    else if kw = ['B', 'I', 'T', 'S'] then
      (parseQuotedBits x).bind fun s => (parseMarked '@' y).bind fun t0 =>
        (parseMarked '+' z).map (.bits s t0)
    else none
  | _ => none

/-- A line of text in the notation of R51, with single spaces between its words (log 21). -/
def parseLine (text : List Char) : Option AsmLine := parseTokens (splitSpaces text)

end Sys2Proof
end

