-- ==== Sys2Proof/Machine/State.lean ====
section
/-! DEFINITION. What the machine holds, what it answers with, and its state after reset. -/

namespace Sys2Proof.Machine

/-! ### Values that pass through -/

/-- A snapshot `(v, n)` of the buffer (R60): the frame bits and how many they are. -/
structure Snapshot where
  v : FrameBits
  n : Nat
  deriving DecidableEq, Repr

/-- The result signals of one accumulator command (R60). -/
structure Result where
  frameReady : Option Snapshot
  incomplete : Option Snapshot
  deriving DecidableEq, Repr

/-- No result signal. -/
def Result.absent : Result := ⟨none, none⟩

/-- The Decoded Frame (R80). Strings are lists of characters (log 16). -/
structure DecodedFrame where
  binaryString : List Char
  hexString : List Char
  facilityCode : Option Nat
  cardNumber : Option Nat
  bitCount : Nat
  deriving DecidableEq, Repr

/-- The error taxonomy (R121), each with the information it records. -/
inductive ErrorCause
  /-- Decode given `n` bits where `w` are expected (R122). -/
  | formatMismatch (n w : Nat)
  /-- Width `w` has no layout and degraded mode is off (R123). -/
  | unsupportedFormat (w : Nat)
  /-- A buffer discarded without a decode (R125): the recoverable diagnostic. -/
  | incompleteFrame (v : FrameBits) (n : Nat)
  /-- The edge source could not be acquired (R124): raised by nothing in this hardware. -/
  | sourceInitFailure
  deriving DecidableEq, Repr

/-- The output events (R120). -/
inductive Event
  /-- `EV_BIT(line, bit)`. -/
  | bit (line : Line) (bit : Bit)
  /-- `EV_FRAME(reader_type, frame)`. -/
  | frame (readerType : String) (frame : DecodedFrame)
  /-- `EV_INCOMPLETE(v, n)`. -/
  | incomplete (v : FrameBits) (n : Nat)
  /-- `EV_DECODE_ERROR(cause)`. -/
  | decodeError (cause : ErrorCause)
  deriving DecidableEq, Repr

/-! ### Outcomes other than a next state -/

/-- The hardware has no fault: every command completes and errors are events (60_exceptions.md, R129, R148; log 20). -/
inductive Fault : Type
  deriving DecidableEq, Repr

/-- Why the machine takes no step. All are safe: the model stops where the spec says there is no step. -/
inductive Refusal
  /-- Raised by `exec` for an instruction that has no meaning yet (none is left). Safe. -/
  | notModelled (mnemonic : String)
  /-- Raised by `step` for a command word with `op` 6 to 15: "it is not a step of the hardware" (R48). Safe. -/
  | reservedCommand (op : BitVec 4)
  /-- Raised by `step` when `EXPECTED_WIDTH` is 0 or above 34: "a model refuses to start with either" (R6). Safe. -/
  | illegalConfiguration (width : BitCount)
  deriving DecidableEq, Repr

/-! ### The state -/

/-- The architectural state of 10_state.md section 1, then three fields of the model's own: the two outputs of the
command just executed (log 2) and the commands the environment has yet to present (log 3). -/
structure State where
  /-- `SR` (R10, R12). -/
  sr : FrameBits
  /-- `CNT` (R10). -/
  cnt : BitCount
  /-- `LU` (R13). -/
  lu : Timestamp
  /-- `LU_VALID` (R14). -/
  luValid : Bool
  /-- `LE` (R16). -/
  le : Timestamp
  /-- `LE_VALID` (R16). -/
  leValid : Bool
  /-- `EXPECTED_WIDTH`, `BIT_TIMEOUT`, `DEBOUNCE_INTERVAL`, `DEGRADED_MODE` (R18). -/
  config : Configuration
  /-- Model's own: `frame_ready` and `incomplete` of the command just executed (R60). -/
  result : Result
  /-- Model's own: the ordered events of the command just executed (R120). -/
  events : List Event
  /-- Model's own: the command words still to be presented, next first (R19, R36, R127). -/
  trace : List CommandWord
  deriving DecidableEq, Repr

/-- The state after power-on with a given configuration loaded and no command presented yet (R27, R140, R141). -/
def State.powerOn (c : Configuration) : State where
  sr := 0
  cnt := 0
  lu := 0
  luValid := false
  le := 0
  leValid := false
  config := c
  result := .absent
  events := []
  trace := []

/-- The machine right after reset (R27, R140), with the configuration log 1 names. -/
def State.reset : State := State.powerOn Config.startup

end Sys2Proof.Machine
end

