-- ==== Sys2Proof/Machine/Flags.lean ====
section
/-! DEFINITION. The predicates the hardware computes and does not store: the completion detector's (10_state.md R21),
the debounce guard's (42_frontend_controller.md R101), and the legality of a configuration (R6). -/

namespace Sys2Proof.Machine

/-- A legal configuration: `EXPECTED_WIDTH` in 1..34; no value of the other registers is illegal (R6, R18). -/
def configLegal (c : Configuration) : Bool :=
  decide (1 ≤ c.expectedWidth.toNat ∧ c.expectedWidth.toNat ≤ Config.maxWidth)

/-- `EMPTY = (CNT == 0)`: never a test of `SR` (R21, R62 (c)). -/
def State.isEmpty (s : State) : Bool := s.cnt == 0

/-- `FULL = (CNT == W)`. -/
def State.isFull (s : State) : Bool := s.cnt == s.config.expectedWidth

/-- `TIMED_OUT(now) = (CNT != 0) and (now > LU + BIT_TIMEOUT)`: strict, in unbounded naturals (R21, R7). -/
def State.timedOut (s : State) (now : Timestamp) : Bool :=
  !s.isEmpty && decide (s.lu.toNat + s.config.bitTimeout.toNat < now.toNat)

/-- `accept = (LE_VALID == 0) or (ts >= LE + DEBOUNCE_INTERVAL)`: equality accepts, in unbounded naturals (R101, R7). -/
def State.debounceAccepts (s : State) (ts : Timestamp) : Bool :=
  !s.leValid || decide (s.le.toNat + s.config.debounceInterval.toNat ≤ ts.toNat)

end Sys2Proof.Machine
end

