-- ==== Sys2Proof/Machine/Operands.lean ====
section
/-! DEFINITION. Operand assembly: the bit of a line, the value of a bit sequence, the fields and renderings of a frame
(30_encoding.md R44 to R47, 41_frame_decoder.md R82 to R85). -/

namespace Sys2Proof.Machine

/-- A falling edge on DATA0 is the bit ZERO and on DATA1 the bit ONE (R102; log 19). -/
def bitOfLine : Line → Bit
  | .data0 => .zero
  | .data1 => .one

/-- `val(b_0 … b_(n-1))`: the first-arrived bit is the most significant (R7). -/
def bitsValue (bits : List Bit) : Nat :=
  bits.foldl (fun acc b => 2 * acc + b.code.toNat) 0

/-- The sequence a buffer of `n` bits holds, in arrival order: `b_i = v[n-1-i]` (R12). -/
def bitsOf (v : FrameBits) (n : Nat) : List Bit :=
  (List.range n).map fun i => Bit.ofCode (v.getLsbD (n - 1 - i))

/-- The character of a bit (R82). -/
def bitChar : Bit → Char
  | .zero => '0'
  | .one => '1'

/-- `binary_string`: the `n` frame bits in arrival order (R82). -/
def binaryString (v : FrameBits) (n : Nat) : List Char := (bitsOf v n).map bitChar

/-- `ceil(W/4)` (R83). -/
def hexDigitCount (w : Nat) : Nat := (w + 3) / 4

/-- `hex_string`: uppercase, zero-padded to `ceil(W/4)` digits (R83). -/
def hexString (v : FrameBits) (w : Nat) : List Char := hexDigits (hexDigitCount w) v

/-! ### The field layouts, held as data (R31, R44) -/

/-- The names of the extracted fields. -/
inductive FieldName
  | facilityCode
  | cardNumber
  deriving DecidableEq, Repr

/-- `{name, start_offset, bit_length}` (R44). -/
structure FieldDescriptor where
  name : FieldName
  start : Nat
  length : Nat
  deriving DecidableEq, Repr

/-- FORMAT_26 (R45): facility_code = bits[1:9), card_number = bits[9:25). -/
def layout26 : List FieldDescriptor := [⟨.facilityCode, 1, 8⟩, ⟨.cardNumber, 9, 16⟩]

/-- FORMAT_34 (R46): facility_code = bits[1:9), card_number = bits[9:33) (log 14). -/
def layout34 : List FieldDescriptor := [⟨.facilityCode, 1, 8⟩, ⟨.cardNumber, 9, 24⟩]

/-- The layout of a width; a width other than 26 and 34 has none (R47). -/
def frameLayout (w : Nat) : List FieldDescriptor :=
  if w = 26 then layout26 else if w = 34 then layout34 else []

/-- 26 and 34 are the supported formats (R6). -/
def formatSupported (w : Nat) : Bool := decide (w = 26 ∨ w = 34)

/-- `field(v, W, s, l) = (v >> (W - s - l)) & (2^l - 1)` (R44). -/
def fieldValue (v : FrameBits) (w start length : Nat) : Nat :=
  (v.toNat >>> (w - start - length)) &&& (2 ^ length - 1)

/-- A named field of a frame of width `w`; absent where the layout has no such field (R47). -/
def frameField (v : FrameBits) (w : Nat) (name : FieldName) : Option Nat :=
  ((frameLayout w).find? fun d => d.name == name).map fun d => fieldValue v w d.start d.length

end Sys2Proof.Machine
end

