-- ==== Sys2Proof/Machine/Ops.lean ====
section
/-! DEFINITION. The shared operations on the state: outputs, the frame buffer, the debounce memory, and reporting an
error, which is this hardware's whole exception entry (60_exceptions.md R129). -/

namespace Sys2Proof.Machine

/-! ### Outputs of a command (R60, R120) -/

/-- A command starts with no outputs: those of the one before do not persist (R21, R120). -/
def State.beginCommand (s : State) : State := { s with result := .absent, events := [] }

/-- `emit EV`: append to the current command's event list (R7). -/
def State.emit (s : State) (e : Event) : State := { s with events := s.events ++ [e] }

/-- Return the result signals to the issuer of the command (R60). -/
def State.withResult (s : State) (r : Result) : State := { s with result := r }

/-- Emit `EV_INCOMPLETE` for an `incomplete` signal, if there is one (R60, R104, R106). -/
def State.emitIncomplete (s : State) : Option Snapshot → State
  | none => s
  | some p => s.emit (.incomplete p.v p.n)

/-! ### The frame buffer -/

/-- The pair `(SR, CNT)` (R60). -/
def State.snapshot (s : State) : Snapshot := ⟨s.sr, s.cnt.toNat⟩

/-- The reset action (R67): the one clear, whoever does it (R15). -/
def State.clearBuffer (s : State) : State := { s with sr := 0, cnt := 0, lu := 0, luValid := false }

/-- The normal branch of an append: shift left by one, new bit into `SR[0]`, `mod 2^34` (R61). -/
def State.shiftIn (s : State) (bit : Bit) (now : Timestamp) : State :=
  { s with
    sr := (s.sr <<< 1) ||| (BitVec.ofBool bit.code).setWidth 34
    cnt := s.cnt + 1
    lu := now
    luValid := true }

/-- The overrun branch of an append: a new buffer containing just `bit` (R61, R63). -/
def State.startBuffer (s : State) (bit : Bit) (now : Timestamp) : State :=
  { s with
    sr := (BitVec.ofBool bit.code).setWidth 34
    cnt := 1
    lu := now
    luValid := true }

/-- `frame_ready` when the buffer is full (R61). -/
def State.frameReadySignal (s : State) : Option Snapshot :=
  if s.isFull then some s.snapshot else none

/-! ### The debounce memory -/

/-- An accepted edge writes `LE <- ts`, `LE_VALID <- 1` (R101). -/
def State.setLastEdge (s : State) (ts : Timestamp) : State := { s with le := ts, leValid := true }

/-! ### Errors -/

/-- The whole entry of an error: its event. No state is saved, no control is transferred, and no state changes on
account of the error (R121, R129); there is no return (R130). -/
def State.reportError (s : State) (cause : ErrorCause) : State := s.emit (.decodeError cause)

/-! ### Codes, levels and payloads of events and errors (R120, R121) -/

/-- The severity of an event. -/
inductive Severity
  | debug
  | info
  | warning
  | error
  deriving DecidableEq, Repr

/-- The event codes (R120). -/
def eventCode : Event → Nat
  | .bit _ _ => 1
  | .frame _ _ => 2
  | .incomplete _ _ => 3
  | .decodeError _ => 4

/-- The event levels (R120). -/
def eventLevel : Event → Severity
  | .bit _ _ => .debug
  | .frame _ _ => .info
  | .incomplete _ _ => .warning
  | .decodeError _ => .error

/-- The cause codes (R121). -/
def causeCode : ErrorCause → Nat
  | .formatMismatch _ _ => 1
  | .unsupportedFormat _ => 2
  | .incompleteFrame _ _ => 3
  | .sourceInitFailure => 4

/-- The condition of the taxonomy an event reports (R121, R122, R123, R125). -/
def eventCause : Event → Option ErrorCause
  | .bit _ _ => none
  | .frame _ _ => none
  | .incomplete v n => some (.incompleteFrame v n)
  | .decodeError cause => some cause

/-- The binary string and the bit count an event carries to the sink (R120). -/
def eventBits : Event → Option (List Char × Nat)
  | .bit _ _ => none
  | .frame _ f => some (f.binaryString, f.bitCount)
  | .incomplete v n => some (binaryString v n, n)
  | .decodeError _ => none

end Sys2Proof.Machine
end

