-- ==== Sys2Proof/Machine/Accumulator.lean ====
section
/-! DEFINITION. The bit accumulator: APPEND, CHECK_TIMEOUT and RESET (40_accumulator.md). Each operation answers the
state it leaves and its result signals; the transactions of Controller.lean use the same operations. -/

namespace Sys2Proof.Machine

/-- `append(bit, now)` (R61): a full buffer is reported and replaced, any other takes the bit; then the
`frame_ready` test. -/
def appendBit (bit : Bit) (now : Timestamp) (s : State) : State × Result :=
  if s.isFull then
    (s.startBuffer bit now, ⟨(s.startBuffer bit now).frameReadySignal, some s.snapshot⟩)
  else
    (s.shiftIn bit now, ⟨(s.shiftIn bit now).frameReadySignal, none⟩)

/-- `check_timeout(now, BIT_TIMEOUT)` (R64): the clear follows both inner branches and lies inside the timed-out
condition (R65); the signal carries a snapshot taken before it. -/
def checkTimeout (now : Timestamp) (s : State) : State × Result :=
  if s.timedOut now then
    (s.clearBuffer, if s.isFull then ⟨some s.snapshot, none⟩ else ⟨none, some s.snapshot⟩)
  else
    (s, .absent)

/-- A primitive accumulator command issued directly: its `incomplete` is also emitted as EV_INCOMPLETE, and both
signals are returned to the issuer (R60). -/
def issueDirectly (p : State × Result) : State := (p.1.emitIncomplete p.2.incomplete).withResult p.2

/-- APPEND (R61). -/
def execAppend (bit : Bit) (now : Timestamp) (s : State) : Host.Outcome State Fault Refusal :=
  .next (issueDirectly (appendBit bit now s.beginCommand))

/-- CHECK_TIMEOUT (R64). -/
def execCheckTimeout (now : Timestamp) (s : State) : Host.Outcome State Fault Refusal :=
  .next (issueDirectly (checkTimeout now s.beginCommand))

/-- RESET (R67): no result, no event. -/
def execReset (s : State) : Host.Outcome State Fault Refusal :=
  .next s.beginCommand.clearBuffer

end Sys2Proof.Machine
end

