-- ==== Sys2Proof/Machine/FrameDecoder.lean ====
section
/-! DEFINITION. The frame decoder: the pure function Decode and the command DECODE (41_frame_decoder.md). -/

namespace Sys2Proof.Machine

/-- `Decode(v, n, W, DEGRADED_MODE)` (R89): the length check, then the format check, then the computation. -/
def decodeFrame (v : FrameBits) (n w : Nat) (degraded : Bool) : Except ErrorCause DecodedFrame :=
  if n ≠ w then
    .error (.formatMismatch n w)
  else if !formatSupported w && !degraded then
    .error (.unsupportedFormat w)
  else
    .ok {
      binaryString := binaryString v n
      hexString := hexString v w
      facilityCode := frameField v w .facilityCode
      cardNumber := frameField v w .cardNumber
      bitCount := n }

/-- Decode of a bit sequence of any length (R80): `n` is its length and `v` its `val`. -/
def decodeSequence (bits : List Bit) (w : Nat) (degraded : Bool) : Except ErrorCause DecodedFrame :=
  decodeFrame (BitVec.ofNat 34 (bitsValue bits)) bits.length w degraded

/-- Hand the outcome of a Decode to the sink: EV_FRAME or EV_DECODE_ERROR (R88, R105). -/
def State.emitDecoded (s : State) : Except ErrorCause DecodedFrame → State
  | .ok f => s.emit (.frame Config.readerType f)
  | .error cause => s.reportError cause

/-- Decode a snapshot with the configured format and emit the outcome; no state is written (R88, R105). -/
def State.decodeAndEmit (s : State) (p : Snapshot) : State :=
  s.emitDecoded (decodeFrame p.v p.n s.config.expectedWidth.toNat s.config.degradedMode)

/-- DECODE (R88): on the current buffer, which it does not clear. -/
def execDecode (s : State) : Host.Outcome State Fault Refusal :=
  .next (s.beginCommand.decodeAndEmit s.snapshot)

end Sys2Proof.Machine
end

