-- ==== Sys2Proof/Machine/Controller.lean ====
section
/-! DEFINITION. The edge front-end and the transactions EDGE and TICK (42_frontend_controller.md). -/

namespace Sys2Proof.Machine

/-- SERVICE(v, n) (R105). -/
def State.service (s : State) (p : Snapshot) : State := s.decodeAndEmit p

/-- What follows the append inside EDGE (R104): report what it discarded, and serve and clear a completed frame. -/
def finishEdge (p : State × Result) : State :=
  match p.2.frameReady with
  | none => p.1.emitIncomplete p.2.incomplete
  | some q => ((p.1.emitIncomplete p.2.incomplete).service q).clearBuffer

/-- An edge that passed both guards (R101 to R104). -/
def acceptEdge (line : Line) (ts : Timestamp) (s : State) : State :=
  finishEdge (appendBit (bitOfLine line) ts ((s.setLastEdge ts).emit (.bit line (bitOfLine line))))

/-- EDGE (R104): the level filter comes before the debounce guard (R100). The result signals stay inside the
transaction (log 7). -/
def execEdge (line : Line) (level : Level) (ts : Timestamp) (s : State) : Host.Outcome State Fault Refusal :=
  match level with
  | .high => .next s.beginCommand
  | .low =>
    if s.debounceAccepts ts then .next (acceptEdge line ts s.beginCommand) else .next s.beginCommand

/-- What follows the check inside TICK (R106): no RESET of its own, the check has cleared the buffer. -/
def finishTick (p : State × Result) : State :=
  match p.2.frameReady with
  | none => p.1.emitIncomplete p.2.incomplete
  | some q => (p.1.emitIncomplete p.2.incomplete).service q

/-- TICK (R106). -/
def execTick (now : Timestamp) (s : State) : Host.Outcome State Fault Refusal :=
  .next (finishTick (checkTimeout now s.beginCommand))

end Sys2Proof.Machine
end

