-- ==== Sys2Proof/Machine/Dispatch.lean ====
section
/-! DEFINITION. One arm per command. -/

namespace Sys2Proof.Machine

def exec (i : Instr) (s : State) : Host.Outcome State Fault Refusal :=
  match i with
  | .append bit now => Sys2Proof.Machine.execAppend bit now s
  | .checkTimeout now => Sys2Proof.Machine.execCheckTimeout now s
  | .reset => Sys2Proof.Machine.execReset s
  | .decode => Sys2Proof.Machine.execDecode s
  | .edge line level ts => Sys2Proof.Machine.execEdge line level ts s
  | .tick now => Sys2Proof.Machine.execTick now s

end Sys2Proof.Machine
end

