-- ==== Sys2Proof/Machine/Fetch.lean ====
section
/-! DEFINITION. The command the environment presents next. The hardware has no program counter and fetches nothing
(10_state.md R19): the trace is the environment's (log 3). -/

namespace Sys2Proof.Machine

/-- What the next step has to do. -/
inductive Fetched
  /-- Refuse, with the reason. -/
  | stop (r : Refusal)
  /-- No command is presented: the state stays as it is (log 4). -/
  | idle (s : State)
  /-- Run a command on the state it finds. -/
  | run (i : Instr) (s : State)
  deriving DecidableEq, Repr

/-- The refusal of a word that is no command (R48). -/
def refusalOf : DecodeError → Refusal
  | .reservedCommand op => .reservedCommand op

/-- Take the next command word off the trace and decode it. An illegal configuration does not start (R6, log 5). -/
def fetch (s : State) : Fetched :=
  if configLegal s.config then
    match s.trace with
    | [] => .idle s.beginCommand
    | w :: rest =>
      match decodeWord w with
      | .ok i => .run i { s with trace := rest }
      | .error e => .stop (refusalOf e)
  else
    .stop (.illegalConfiguration s.config.expectedWidth)

/-- Present a command word as the next one. -/
def State.present (s : State) (w : CommandWord) : State := { s with trace := w :: s.trace }

end Sys2Proof.Machine
end

