-- ==== Sys2Proof/Machine/Step.lean ====
section
/-! DEFINITION. One step: one command, atomically (00_scope.md R8). -/

namespace Sys2Proof.Machine

/-- The next command is taken and executed as one atomic step (R8, R34, R36). -/
def step (s : State) : Host.Outcome State Fault Refusal :=
  match fetch s with
  | .stop r => .refused r
  | .idle t => .next t
  | .run i t => exec i t

/-- The state in which the word with bits `w` is the next command presented (log 3). -/
def State.withFetchWord (s : State) (nbits w : Nat) : State := s.present (tableWord nbits w)

end Sys2Proof.Machine
end

