-- ==== Sys2Proof/Safety.lean ====
section
/-! DEFINITION. What counts as a good state and as a trace the environment may present, in the terms the claims use:
the invariants of 10_state.md R11 and R14, the traces of 42_frontend_controller.md R108, and the monotonic
time of 70_reset_and_hazards.md R147. -/

namespace Sys2Proof.Machine

/-- The frame buffer's invariant: `CNT <= W`, `SR < 2^CNT` (R11), `LU_VALID = 1` exactly when `CNT > 0`, and a cleared
`LU` is 0 (R14). -/
abbrev State.BufferInv (s : State) : Prop :=
  s.cnt.toNat ≤ s.config.expectedWidth.toNat ∧ s.sr.toNat < 2 ^ s.cnt.toNat ∧
    s.luValid = decide (0 < s.cnt.toNat) ∧ (s.luValid = false → s.lu = 0)

/-- The invariant of a started machine: a legal configuration (R6), the buffer's invariant, and a debounce memory that
is 0 while invalid (R27). -/
abbrev State.Inv (s : State) : Prop :=
  configLegal s.config = true ∧ s.BufferInv ∧ (s.leValid = false → s.le = 0)

/-- The empty buffer: the one state RESET leaves (R67, R68). -/
abbrev State.BufferEmpty (s : State) : Prop :=
  s.sr = 0 ∧ s.cnt = 0 ∧ s.lu = 0 ∧ s.luValid = false

/-- EDGE and TICK are the transactions; the other four commands are primitives (R40). -/
def isTransaction : Instr → Bool
  | .append _ _ => false
  | .checkTimeout _ => false
  | .reset => false
  | .decode => false
  | .edge _ _ _ => true
  | .tick _ => true

/-- The words a test on commands accepts. -/
def wordSatisfies (p : Instr → Bool) (w : CommandWord) : Bool :=
  match decodeWord w with
  | .ok i => p i
  | .error _ => false

/-- A trace made only of EDGE and TICK commands (R108). -/
def transactionsOnly (trace : List CommandWord) : Bool := trace.all (wordSatisfies isTransaction)

/-- The time a command carries. -/
def commandTime : Instr → Option Timestamp
  | .append _ now => some now
  | .checkTimeout now => some now
  | .reset => none
  | .decode => none
  | .edge _ _ ts => some ts
  | .tick now => some now

/-- Monotonic time (R147): every timestamp is at least as large as every earlier one, the first at least `earliest`. -/
def monotonicFrom (earliest : Timestamp) : List Instr → Bool
  | [] => true
  | i :: rest =>
    match commandTime i with
    | none => monotonicFrom earliest rest
    | some t => decide (earliest.toNat ≤ t.toNat) && monotonicFrom t rest

/-! ### Outputs, over one command and over a run -/

/-- The event by which the outcome of a Decode is reported (R88, R105, R120). -/
def outcomeEvent : Except ErrorCause DecodedFrame → Event
  | .ok f => .frame Config.readerType f
  | .error cause => .decodeError cause

/-- Decode applied with the configuration of a state (R88, R105). -/
def decodedWith (c : Configuration) (v : FrameBits) (n : Nat) : Event :=
  outcomeEvent (decodeFrame v n c.expectedWidth.toNat c.degradedMode)

/-- An `EV_BIT` counts one accepted bit. -/
def eventAcceptedBits : Event → Nat
  | .bit _ _ => 1
  | .frame _ _ => 0
  | .incomplete _ _ => 0
  | .decodeError _ => 0

/-- How many frame bits an event reports to the sink: those of a frame, of a partial or stale buffer, and of a frame
of an unsupported width (R120, R122, R123, R125). -/
def eventReportedBits : Event → Nat
  | .bit _ _ => 0
  | .frame _ f => f.bitCount
  | .incomplete _ n => n
  | .decodeError (.unsupportedFormat w) => w
  | .decodeError (.formatMismatch _ _) => 0
  | .decodeError (.incompleteFrame _ _) => 0
  | .decodeError .sourceInitFailure => 0

/-- The bits the front-end accepted, as a list of events tells them (R103). -/
def acceptedBits (events : List Event) : Nat := (events.map eventAcceptedBits).sum

/-- The bits a list of events reports to the sink. -/
def reportedBits (events : List Event) : Nat := (events.map eventReportedBits).sum

/-- The events of the first `k` steps, in order. -/
def eventsAlong : Nat → State → List Event
  | 0, _ => []
  | k + 1, s =>
    match step s with
    | .next t => t.events ++ eventsAlong k t
    | .fault _ => []
    | .refused _ => []

end Sys2Proof.Machine
end

