-- ==== Sys2Proof/Certificates/Slice0/Obligations.lean ====
section
/-! DEFINITION. The statements for the provers. `W` stands for `s.config.expectedWidth` in the docstrings. The fields
`result` and `events` of State, where the statements read a command's outputs, are the model's own place for them
(log 2); what they hold is the spec's. -/

open Sys2Proof Sys2Proof.Machine

/-! ### Command words (30_encoding.md) -/

/-- Every command is read back from its word, every operand at every value (section 2; the word is the spec's own
choice, D2). -/
def Obligations.EncodedCommandDecodesToItself : Prop :=
  ∀ i : Instr, decodeWord (encode i) = .ok i

/-- The words an assembler writes (`rsv` and unused fields 0, section 2) are exactly the encodings of the commands, and
such a word is given back by decoding and encoding it (D2). -/
def Obligations.CanonicalWordsAreTheEncodings : Prop :=
  (∀ i : Instr, CommandWord.canonical (encode i) = true) ∧
  ∀ w : CommandWord, CommandWord.canonical w = true → ∃ i, decodeWord w = .ok i ∧ encode i = w

/-- "two words that differ only in unused fields are the same command" (section 2, D2), and two words that differ in
`op` or in a used field are not. -/
def Obligations.DecodingReadsOpAndUsedFieldsOnly : Prop :=
  ∀ w w' : CommandWord, decodeWord w = decodeWord w' ↔
    cmdOp w = cmdOp w' ∧
    ((cmdOp w).toNat = 0 → cmdA w = cmdA w' ∧ cmdTs w = cmdTs w') ∧
    ((cmdOp w).toNat = 1 → cmdTs w = cmdTs w') ∧
    ((cmdOp w).toNat = 4 → cmdA w = cmdA w' ∧ cmdB w = cmdB w' ∧ cmdTs w = cmdTs w') ∧
    ((cmdOp w).toNat = 5 → cmdTs w = cmdTs w')

/-- A word is the command with number `k` exactly when it matches `k << 68` under the mask `0xF << 68` (section 2 and
the columns match and mask of opcode_table.json; D2). -/
def Obligations.MatchUnderMaskSelectsTheCommand : Prop :=
  ∀ (w : CommandWord) (k : Nat), k < 6 →
    ((w &&& (0xF#72 <<< 68) = BitVec.ofNat 72 k <<< 68) ↔
      ∃ i, decodeWord w = .ok i ∧ i.opcode.toNat = k)

/-- A word with `op` 6 to 15 is refused by name, and only such a word; a step that would take it is refused: it changes
no state and emits no event (section 5, D2). -/
def Obligations.ReservedCommandNumbersAreRefused : Prop :=
  (∀ w : CommandWord, 6 ≤ (cmdOp w).toNat ↔ ∃ e, decodeWord w = .error e) ∧
  ∀ (s : State) (w : CommandWord) (rest : List CommandWord),
    configLegal s.config = true → s.trace = w :: rest → 6 ≤ (cmdOp w).toNat →
    step s = .refused (.reservedCommand (cmdOp w))

/-- Command words written out in the spec (95_test_vectors.md V-E1 to V-E13) decode as it says. -/
def Obligations.WrittenWordsDecodeAsTheSpecSays : Prop :=
  decodeWord 0x020000000000000005#72 = .ok (.append .one 5) ∧
  decodeWord 0x1000000000000001F4#72 = .ok (.checkTimeout 500) ∧
  decodeWord 0x2F00000000DEADBEEF#72 = .ok .reset ∧
  decodeWord 0x300000000000000000#72 = .ok .decode ∧
  decodeWord 0x410000000000000007#72 = .ok (.edge .data0 .high 7) ∧
  decodeWord 0x42FFFFFFFFFFFFFFFF#72 = .ok (.edge .data1 .low 18446744073709551615) ∧
  decodeWord 0x4A0000000000000005#72 = .ok (.edge .data1 .low 5) ∧
  decodeWord 0x500000000000000258#72 = .ok (.tick 600) ∧
  decodeWord 0x600000000000000000#72 = .error (.reservedCommand 6)

/-- The 18 hexadecimal digits of a word (section 2): the first is `op`, the second the bits `{rsv, a, b}`, the last
sixteen `ts`; reading the digits back gives the word (D2). -/
def Obligations.HexadecimalFormOfAWordReadsBack : Prop :=
  ∀ w : CommandWord, (hexOfWord w).length = 18 ∧ wordOfHex (hexOfWord w) = some w ∧
    (hexOfWord w)[0]? = some (hexDigit (cmdOp w)) ∧
    (∃ digit : BitVec 4, (hexOfWord w)[1]? = some (hexDigit digit) ∧
      digit.toNat = 4 * (cmdRsv w).toNat + 2 * (cmdA w).toNat + (cmdB w).toNat) ∧
    (hexOfWord w).drop 2 = hexDigits 16 (cmdTs w)

/-- `BITS "<string>" @<t0> +<d>` is one pulse per character, left to right, at `t0`, `t0 + d`, `t0 + 2d`, … (section 6,
D27): a falling edge on DATA0 for a ZERO and on DATA1 for a ONE (log 19). -/
def Obligations.BitsLineExpandsToTimedPulses : Prop :=
  ∀ (string : List Bit) (t0 d : Nat),
    (AsmLine.bits string t0 d).expand.length = string.length ∧
    ∀ (k : Nat) (b : Bit), string[k]? = some b →
      (AsmLine.bits string t0 d).expand[k]? =
        some (.edge (if b = .zero then .data0 else .data1) .low (BitVec.ofNat 64 (t0 + k * d)))

/-! ### The step (00_scope.md, 20_memory.md) -/

/-- When the next word presented decodes to a command, the step is `exec` of that command on the state with the word
taken off the trace; a step adds nothing else. (The trace is the model's own field, log 3.) -/
def Obligations.StepRunsTheDecodedCommand : Prop :=
  ∀ (s : State) (w : CommandWord) (rest : List CommandWord) (i : Instr),
    configLegal s.config = true → s.trace = w :: rest → decodeWord w = .ok i →
    step s = exec i { s with trace := rest }

/-- With no command presented nothing happens: every register keeps its value and there is no output. The model's choice
(log 4), from "the hardware stays in its reset state" (60_exceptions.md) and "always ready for a command". -/
def Obligations.StepWithoutACommandChangesNothing : Prop :=
  ∀ s : State, configLegal s.config = true → s.trace = [] →
    step s = .next { s with result := ⟨none, none⟩, events := [] }

/-- "`W = 0` and `W > 34` are not legal configurations ...; a model refuses to start with either" (00_scope.md section
4, D12). That `step` is where it refuses is the model's choice (log 5). -/
def Obligations.IllegalWidthIsRefused : Prop :=
  ∀ s : State, (s.config.expectedWidth.toNat = 0 ∨ 34 < s.config.expectedWidth.toNat) →
    step s = .refused (.illegalConfiguration s.config.expectedWidth)

/-- A step completes exactly when the configuration is legal and the next word, if there is one, is a command; it never
faults. The model's choices in it: an idle step completes (log 4, from "the hardware stays in its reset state",
60_exceptions.md section 2); `step` is where an illegal width is refused (log 5, from "a model refuses to start with
either", 00_scope.md section 4); a reserved word is refused as the next one (log 6; D2). -/
def Obligations.StepCompletesExactlyOnCommands : Prop :=
  (∀ s : State, (∃ t, step s = .next t) ↔
    (1 ≤ s.config.expectedWidth.toNat ∧ s.config.expectedWidth.toNat ≤ 34 ∧
      ∀ w rest, s.trace = w :: rest → (cmdOp w).toNat < 6)) ∧
  ∀ (s : State) (f : Fault), step s ≠ .fault f

/-- R148: every command completes in one step, from every state. -/
def Obligations.EveryCommandCompletesInOneStep : Prop :=
  ∀ (i : Instr) (s : State), ∃ t, exec i s = .next t

/-- No command changes the configuration ("static, loaded at startup", 10_state.md section 4; 20_memory.md section 5),
and a step takes exactly one command off the trace, if there is one. (The trace, and that a step takes from it, are the
model's choice: log 3; the idle step: log 4.) -/
def Obligations.ConfigurationNeverChanges : Prop :=
  ∀ s t : State, step s = .next t → t.config = s.config ∧ t.trace = s.trace.tail

/-! ### The accumulator (40_accumulator.md) -/

/-- APPEND (section 2). A full buffer is reported as incomplete and replaced by one bit; any other is shifted left by
one with the bit in `SR[0]`, `mod 2^34`; `LU <- now`; `frame_ready` carries the new buffer when the new count is `W`.
Everything else is unchanged. (That the overrun branch writes `LU` and tests `frame_ready` is the spec's reading D8.) -/
def Obligations.AppendFollowsItsRule : Prop :=
  ∀ (bit : Bit) (now : Timestamp) (s : State),
    (s.cnt = s.config.expectedWidth →
      exec (.append bit now) s = .next { s with
        sr := BitVec.ofNat 34 bit.code.toNat
        cnt := 1
        lu := now
        luValid := true
        result := ⟨if s.config.expectedWidth = 1 then some ⟨BitVec.ofNat 34 bit.code.toNat, 1⟩ else none,
          some ⟨s.sr, s.cnt.toNat⟩⟩
        events := [.incomplete s.sr s.cnt.toNat] }) ∧
    (s.cnt ≠ s.config.expectedWidth →
      exec (.append bit now) s = .next { s with
        sr := BitVec.ofNat 34 (2 * s.sr.toNat + bit.code.toNat)
        cnt := s.cnt + 1
        lu := now
        luValid := true
        result := ⟨if s.cnt + 1 = s.config.expectedWidth then
            some ⟨BitVec.ofNat 34 (2 * s.sr.toNat + bit.code.toNat), (s.cnt + 1).toNat⟩ else none, none⟩
        events := [] })

/-- The buffer is the sequence of its bits in arrival order, first-arrived most significant: its value is `val` of that
sequence (10_state.md section 2, D6), and APPEND to a buffer that is not full adds the bit at the end. -/
def Obligations.AppendAddsTheBitAtTheEndOfTheSequence : Prop :=
  (∀ s : State, s.Inv → bitsValue (bitsOf s.sr s.cnt.toNat) = s.sr.toNat) ∧
  ∀ (bit : Bit) (now : Timestamp) (s : State), s.Inv → s.cnt ≠ s.config.expectedWidth →
    ∃ t, exec (.append bit now) s = .next t ∧
      bitsOf t.sr t.cnt.toNat = bitsOf s.sr s.cnt.toNat ++ [bit]

/-- R63, the overrun branch: taken exactly when the buffer is full; the stale frame is reported with bit count `W` and
not decoded (its EV_INCOMPLETE is the only event); the buffer left is that of the reset action followed by the append;
`frame_ready` comes with it only when `W = 1`; no buffer exceeds `W` bits in either branch. -/
def Obligations.OverrunReportsTheStaleFrameAndRestarts : Prop :=
  ∀ (bit : Bit) (now : Timestamp) (s : State), s.Inv →
    ∃ t, exec (.append bit now) s = .next t ∧
      (t.result.incomplete ≠ none ↔ s.cnt = s.config.expectedWidth) ∧
      t.cnt.toNat ≤ s.config.expectedWidth.toNat ∧
      (s.cnt = s.config.expectedWidth →
        t.result.incomplete = some ⟨s.sr, s.config.expectedWidth.toNat⟩ ∧
        t.events = [.incomplete s.sr s.config.expectedWidth.toNat] ∧
        t.cnt = 1 ∧ t.lu = now ∧ t.luValid = true ∧
        (∃ u v, exec .reset s = .next u ∧ exec (.append bit now) u = .next v ∧
          t.sr = v.sr ∧ t.cnt = v.cnt ∧ t.lu = v.lu ∧ t.luValid = v.luValid) ∧
        (s.config.expectedWidth ≠ 1 → t.result.frameReady = none) ∧
        (s.config.expectedWidth = 1 → t.result.frameReady = some ⟨t.sr, 1⟩))

/-- R64: CHECK_TIMEOUT. -/
def Obligations.CheckTimeoutFollowsItsRule : Prop :=
  ∀ (now : Timestamp) (s : State),
    (Instr.checkTimeout now).opcode = 1 ∧
    exec (.checkTimeout now) s = .next
      (if s.cnt ≠ 0 ∧ now.toNat > s.lu.toNat + s.config.bitTimeout.toNat then
        { s with
          sr := 0, cnt := 0, lu := 0, luValid := false
          result := if s.cnt = s.config.expectedWidth then ⟨some ⟨s.sr, s.cnt.toNat⟩, none⟩
            else ⟨none, some ⟨s.sr, s.cnt.toNat⟩⟩
          events := if s.cnt = s.config.expectedWidth then [] else [.incomplete s.sr s.cnt.toNat] }
      else { s with result := ⟨none, none⟩, events := [] })

/-- R66, the corner cases (a) to (f) of CHECK_TIMEOUT. (Case (e), `now < LU`, is outside the environment's contract;
the clause says only what the total rule says, log 8.) -/
def Obligations.TimeoutCornerCases : Prop :=
  ∀ (now : Timestamp) (s : State), s.Inv →
    ∃ t, exec (.checkTimeout now) s = .next t ∧
      (s.cnt = 0 → t.result = ⟨none, none⟩ ∧ t.events = [] ∧ t.cnt = 0) ∧
      (s.cnt ≠ 0 → s.config.bitTimeout = 0 → s.lu.toNat < now.toNat → t.cnt = 0 ∧ t.result ≠ ⟨none, none⟩) ∧
      (now.toNat ≤ s.lu.toNat + s.config.bitTimeout.toNat →
        t = { s with result := ⟨none, none⟩, events := [] }) ∧
      (now.toNat < s.lu.toNat → t = { s with result := ⟨none, none⟩, events := [] }) ∧
      (∀ p, t.result.incomplete = some p → 1 ≤ p.n) ∧
      (s.cnt.toNat + 1 = s.config.expectedWidth.toNat → s.cnt ≠ 0 →
        s.lu.toNat + s.config.bitTimeout.toNat < now.toNat →
        t.events = [.incomplete s.sr (s.config.expectedWidth.toNat - 1)]) ∧
      (s.cnt = s.config.expectedWidth → s.lu.toNat + s.config.bitTimeout.toNat < now.toNat →
        t.result = ⟨some ⟨s.sr, s.config.expectedWidth.toNat⟩, none⟩ ∧ t.cnt = 0) ∧
      (1 ≤ s.cnt.toNat → s.cnt.toNat < s.config.expectedWidth.toNat →
        s.lu.toNat + s.config.bitTimeout.toNat < now.toNat →
        t.result = ⟨none, some ⟨s.sr, s.cnt.toNat⟩⟩ ∧ t.BufferEmpty)

/-- R67: RESET clears the four buffer registers, reports nothing, and touches neither the debounce memory nor the
configuration. -/
def Obligations.ResetFollowsItsRule : Prop :=
  ∀ s : State, (Instr.reset).opcode = 2 ∧
    exec .reset s = .next { s with
      sr := 0, cnt := 0, lu := 0, luValid := false, result := ⟨none, none⟩, events := [] }

/-- "two consecutive `reset()` calls leave the buffer in the same empty state as one", and the empty state is unique: a
good state with no bits has the buffer RESET leaves (section 4, D7). -/
def Obligations.ResetIsIdempotentAndTheEmptyBufferUnique : Prop :=
  (∀ s : State, ∃ t, exec .reset s = .next t ∧ exec .reset t = .next t ∧ t.BufferEmpty) ∧
  ∀ s : State, s.Inv → s.cnt = 0 → s.BufferEmpty

/-- R60, the result signals of the three accumulator commands: `frame_ready` carries a snapshot of `W` bits and emits
nothing, `incomplete` carries the buffer being discarded and is also emitted as EV_INCOMPLETE, and both together are
returned only by APPEND with `W = 1`. -/
def Obligations.ResultSignalsOfAccumulatorCommands : Prop :=
  ∀ (i : Instr) (s : State), s.Inv →
    ((∃ bit now, i = .append bit now) ∨ (∃ now, i = .checkTimeout now) ∨ i = .reset) →
    ∃ t, exec i s = .next t ∧
      (∀ p, t.result.frameReady = some p → p.n = s.config.expectedWidth.toNat ∧
        (p = ⟨t.sr, t.cnt.toNat⟩ ∨ (p = ⟨s.sr, s.cnt.toNat⟩ ∧ t.BufferEmpty))) ∧
      (∀ p, t.result.incomplete = some p →
        p = ⟨s.sr, s.cnt.toNat⟩ ∧ t.events = [.incomplete p.v p.n]) ∧
      (t.result.incomplete = none → t.events = []) ∧
      (t.result.frameReady ≠ none → t.result.incomplete ≠ none →
        s.config.expectedWidth = 1 ∧ ∃ bit now, i = .append bit now)

/-! ### The decoder (41_frame_decoder.md, 30_encoding.md section 4) -/

/-- R81: the length check fails first and nothing else is computed; a list of bits longer than 34 always fails
(the rule's "a list longer than 34 bits" stands in R80); of the commands only a DECODE on a buffer that is not full
meets it. -/
def Obligations.WrongLengthIsAFormatMismatch : Prop :=
  (∀ (v : FrameBits) (n w : Nat) (degraded : Bool), n ≠ w →
    decodeFrame v n w degraded = .error (.formatMismatch n w)) ∧
  (∀ (bits : List Bit) (w : Nat) (degraded : Bool), w ≤ 34 → 34 < bits.length →
    decodeSequence bits w degraded = .error (.formatMismatch bits.length w)) ∧
  ∀ (i : Instr) (s : State), ∃ t, exec i s = .next t ∧
    ∀ n w, Event.decodeError (.formatMismatch n w) ∈ t.events → i = .decode ∧ s.cnt ≠ s.config.expectedWidth

/-- R82, R86: `binary_string` has `n` characters, character `i` from the left is the bit `v[n-1-i]`, read in base 2 it
is the frame value `v` itself; `bit_count = n = W`. -/
def Obligations.BinaryStringShowsTheFrameInArrivalOrder : Prop :=
  ∀ (v : FrameBits) (n w : Nat) (degraded : Bool) (f : DecodedFrame), n ≤ 34 → v.toNat < 2 ^ n →
    decodeFrame v n w degraded = .ok f →
    f.binaryString.length = n ∧
    (∀ i < n, f.binaryString[i]? = some (if v.getLsbD (n - 1 - i) then '1' else '0')) ∧
    parseBase 2 f.binaryString = some v.toNat ∧
    f.bitCount = n ∧ n = w

/-- `hex_string` (section 1): exactly `ceil(W/4)` uppercase digits, digit `j` from the left the nibble
`(v >> 4(D-1-j)) & 0xF`; for `W` = 26 and 34 the leftmost digit is in 0..3 (20_memory.md section 3, D15). -/
def Obligations.HexStringIsPaddedAndMostSignificantFirst : Prop :=
  ∀ (v : FrameBits) (w : Nat) (degraded : Bool) (f : DecodedFrame), 1 ≤ w → w ≤ 34 → v.toNat < 2 ^ w →
    decodeFrame v w w degraded = .ok f →
    f.hexString.length = (w + 3) / 4 ∧
    (∀ j < (w + 3) / 4, f.hexString[j]? =
      ['0', '1', '2', '3', '4', '5', '6', '7', '8', '9', 'A', 'B', 'C', 'D', 'E', 'F'][
        (v.toNat >>> (4 * ((w + 3) / 4 - 1 - j))) % 16]?) ∧
    ((w = 26 ∨ w = 34) → ∃ c rest, f.hexString = c :: rest ∧ c ∈ ['0', '1', '2', '3'])

/-- R44: a field of a frame of `W` bits is the value of the slice `[s, s + l)` of the bit string, which is
`(v >> (W - s - l)) & (2^l - 1)`, which is `v[W-s-1 : W-s-l]`. -/
def Obligations.FieldIsTheValueOfItsSlice : Prop :=
  ∀ (v : FrameBits) (w start length : Nat), w ≤ 34 → v.toNat < 2 ^ w → start + length ≤ w →
    fieldValue v w start length = bitsValue (((bitsOf v w).drop start).take length) ∧
    fieldValue v w start length = (v.toNat >>> (w - start - length)) &&& (2 ^ length - 1) ∧
    fieldValue v w start length = (v.extractLsb' (w - start - length) length).toNat

/-- R84: FORMAT_26. Both fields are present, `v[24:17]` and `v[16:1]`; the unclaimed bits 25 and 0 enter neither. -/
def Obligations.Format26ExtractsItsFields : Prop :=
  ∀ (v : FrameBits) (degraded : Bool),
    ∃ f, decodeFrame v 26 26 degraded = .ok f ∧
      f.facilityCode = some ((v.toNat >>> 17) &&& 0xFF) ∧ f.facilityCode = some (v.extractLsb' 17 8).toNat ∧
      f.cardNumber = some ((v.toNat >>> 1) &&& 0xFFFF) ∧ f.cardNumber = some (v.extractLsb' 1 16).toNat ∧
      ∀ v' : FrameBits, v'.extractLsb' 1 24 = v.extractLsb' 1 24 →
        ∃ f', decodeFrame v' 26 26 degraded = .ok f' ∧
          f'.facilityCode = f.facilityCode ∧ f'.cardNumber = f.cardNumber

/-- R85: FORMAT_34. Both fields are present, `v[32:25]` and `v[24:1]`; the unclaimed bits 33 and 0 enter neither. -/
def Obligations.Format34ExtractsItsFields : Prop :=
  ∀ (v : FrameBits) (degraded : Bool),
    ∃ f, decodeFrame v 34 34 degraded = .ok f ∧
      f.facilityCode = some ((v.toNat >>> 25) &&& 0xFF) ∧ f.facilityCode = some (v.extractLsb' 25 8).toNat ∧
      f.cardNumber = some ((v.toNat >>> 1) &&& 0xFFFFFF) ∧ f.cardNumber = some (v.extractLsb' 1 24).toNat ∧
      ∀ v' : FrameBits, v'.extractLsb' 1 32 = v.extractLsb' 1 32 →
        ∃ f', decodeFrame v' 34 34 degraded = .ok f' ∧
          f'.facilityCode = f.facilityCode ∧ f'.cardNumber = f.cardNumber

/-- A width other than 26 and 34 (section 1, D11, D13): in degraded mode a frame with no fields, otherwise
UnsupportedFormat, and in either case only after the length check. -/
def Obligations.UnsupportedWidthFollowsDegradedMode : Prop :=
  ∀ (v : FrameBits) (w : Nat), w ≠ 26 → w ≠ 34 →
    (∃ f, decodeFrame v w w true = .ok f ∧ f.facilityCode = none ∧ f.cardNumber = none ∧ f.bitCount = w ∧
      f.binaryString.length = w ∧ f.hexString.length = (w + 3) / 4) ∧
    decodeFrame v w w false = .error (.unsupportedFormat w) ∧
    ∀ n, n ≠ w → decodeFrame v n w false = .error (.formatMismatch n w)

/-- "for any bit sequence of length `total_width`, `hex_string` parsed back as base-16 equals the integer parsed from
`binary_string` as base-2", and both are the value of the sequence (section 1, laws of Decode (b)). -/
def Obligations.HexAndBinaryStringsParseToTheSameValue : Prop :=
  ∀ (bits : List Bit) (w : Nat) (degraded : Bool), bits.length = w → 1 ≤ w → w ≤ 34 →
    (w = 26 ∨ w = 34 ∨ degraded = true) →
    ∃ f, decodeSequence bits w degraded = .ok f ∧
      parseBase 16 f.hexString = some (bitsValue bits) ∧
      parseBase 2 f.binaryString = some (bitsValue bits)

/-- Reassembly (section 1, laws of Decode (d)): the two unclaimed bits and the two fields are the whole frame. -/
def Obligations.FieldsReassembleTheFrame : Prop :=
  ∀ (v : FrameBits) (degraded : Bool),
    (v.toNat < 2 ^ 26 → ∃ f fc cn, decodeFrame v 26 26 degraded = .ok f ∧
      f.facilityCode = some fc ∧ f.cardNumber = some cn ∧
      v.toNat = (v.getLsbD 25).toNat * 2 ^ 25 + fc * 2 ^ 17 + cn * 2 + (v.getLsbD 0).toNat) ∧
    (∃ f fc cn, decodeFrame v 34 34 degraded = .ok f ∧
      f.facilityCode = some fc ∧ f.cardNumber = some cn ∧
      v.toNat = (v.getLsbD 33).toNat * 2 ^ 33 + fc * 2 ^ 25 + cn * 2 + (v.getLsbD 0).toNat)

/-- R88: DECODE on the current buffer emits one event and changes no state; FormatMismatch when `CNT != W`, the empty
buffer included, and UnsupportedFormat when `CNT = W`, `W` is unsupported and `DEGRADED_MODE = 0`. (Of `result` nothing
is said: log 7.) -/
def Obligations.DecodeFollowsItsRule : Prop :=
  ∀ s : State, (Instr.decode).opcode = 3 ∧
    ∃ e r, exec .decode s = .next { s with result := r, events := [e] } ∧
      (∀ f, decodeFrame s.sr s.cnt.toNat s.config.expectedWidth.toNat s.config.degradedMode = .ok f →
        e = .frame Config.readerType f) ∧
      (∀ c, decodeFrame s.sr s.cnt.toNat s.config.expectedWidth.toNat s.config.degradedMode = .error c →
        e = .decodeError c) ∧
      (s.cnt ≠ s.config.expectedWidth →
        e = .decodeError (.formatMismatch s.cnt.toNat s.config.expectedWidth.toNat)) ∧
      (s.cnt = s.config.expectedWidth → s.config.expectedWidth ≠ 26 → s.config.expectedWidth ≠ 34 →
        s.config.degradedMode = false →
        e = .decodeError (.unsupportedFormat s.config.expectedWidth.toNat))

/-! ### The front-end and the transactions (42_frontend_controller.md) -/

/-- R35, R49: what changes nothing. A rising edge, an edge the guard drops, and a CHECK_TIMEOUT or TICK with the timeout
not elapsed leave every register as it was and emit nothing; DECODE leaves every register as it was. -/
def Obligations.ReadsAndIgnoredCommandsChangeNothing : Prop :=
  ∀ (s : State) (line : Line) (ts : Timestamp),
    (∃ r, exec (.edge line .high ts) s = .next { s with result := r, events := [] }) ∧
    (s.leValid = true → ts.toNat < s.le.toNat + s.config.debounceInterval.toNat →
      ∃ r, exec (.edge line .low ts) s = .next { s with result := r, events := [] }) ∧
    ((s.cnt = 0 ∨ ts.toNat ≤ s.lu.toNat + s.config.bitTimeout.toNat) →
      exec (.checkTimeout ts) s = .next { s with result := ⟨none, none⟩, events := [] } ∧
      ∃ r, exec (.tick ts) s = .next { s with result := r, events := [] }) ∧
    ∃ e r, exec .decode s = .next { s with result := r, events := [e] }

/-- R103: EV_BIT is emitted once by every accepted falling edge, with its line and the appended bit, and by no other
command. The appended bit is `SR[0]` where it stays in the buffer, and the last bit of the frame where it completed
one. -/
def Obligations.BitEventOncePerAcceptedEdge : Prop :=
  ∀ (i : Instr) (s : State), ∃ t, exec i s = .next t ∧
    (∀ line ts, i = .edge line .low ts → s.debounceAccepts ts = true →
      acceptedBits t.events = 1 ∧
      ∃ bit, Event.bit line bit ∈ t.events ∧
        (t.cnt ≠ 0 → t.sr.getLsbD 0 = bit.code) ∧
        (configLegal s.config = true → ∀ r f, Event.frame r f ∈ t.events →
          f.binaryString.getLast? = some (if bit = .one then '1' else '0'))) ∧
    ((∀ line ts, i = .edge line .low ts → s.debounceAccepts ts = false) → acceptedBits t.events = 0)

/-- EDGE, accepted (D16), not completing a frame (section 3): EV_BIT, and the bit appended. DATA0 is ZERO, DATA1 is ONE
(log 19). No result signals come out (log 7). -/
def Obligations.EdgeAppendsItsBit : Prop :=
  ∀ (line : Line) (ts : Timestamp) (s : State),
    (s.leValid = false ∨ s.le.toNat + s.config.debounceInterval.toNat ≤ ts.toNat) →
    s.cnt ≠ s.config.expectedWidth → s.cnt + 1 ≠ s.config.expectedWidth →
    exec (.edge line .low ts) s = .next { s with
      sr := BitVec.ofNat 34 (2 * s.sr.toNat + (if line = .data0 then 0 else 1))
      cnt := s.cnt + 1
      lu := ts
      luValid := true
      le := ts
      leValid := true
      result := ⟨none, none⟩
      events := [.bit line (if line = .data0 then .zero else .one)] }

/-- EDGE, accepted, completing a frame (section 3): EV_BIT, then the outcome of Decode on the completed buffer, and the
buffer is cleared whether the decode succeeded or failed (D18), all in one step. No result signals come out (log 7);
DATA0 is ZERO, DATA1 is ONE (log 19). -/
def Obligations.CompletingEdgeDecodesAndClears : Prop :=
  ∀ (line : Line) (ts : Timestamp) (s : State),
    (s.leValid = false ∨ s.le.toNat + s.config.debounceInterval.toNat ≤ ts.toNat) →
    s.cnt ≠ s.config.expectedWidth → s.cnt + 1 = s.config.expectedWidth →
    exec (.edge line .low ts) s = .next { s with
      sr := 0
      cnt := 0
      lu := 0
      luValid := false
      le := ts
      leValid := true
      result := ⟨none, none⟩
      events := [.bit line (if line = .data0 then .zero else .one),
        decodedWith s.config (BitVec.ofNat 34 (2 * s.sr.toNat + (if line = .data0 then 0 else 1)))
          s.config.expectedWidth.toNat] }

/-- EDGE, accepted, on a full buffer that a directly issued APPEND left (section 3): EV_BIT, then the stale frame as
incomplete, and the bit alone in the buffer; with `W = 1` that bit is itself a frame, decoded and cleared
(D8). No result signals come out (log 7); DATA0 is ZERO, DATA1 is ONE (log 19). -/
def Obligations.EdgeOnAFullBufferOverruns : Prop :=
  ∀ (line : Line) (ts : Timestamp) (s : State),
    (s.leValid = false ∨ s.le.toNat + s.config.debounceInterval.toNat ≤ ts.toNat) →
    s.cnt = s.config.expectedWidth →
    (s.config.expectedWidth ≠ 1 → exec (.edge line .low ts) s = .next { s with
      sr := (if line = .data0 then 0 else 1)
      cnt := 1
      lu := ts
      luValid := true
      le := ts
      leValid := true
      result := ⟨none, none⟩
      events := [.bit line (if line = .data0 then .zero else .one),
        .incomplete s.sr s.cnt.toNat] }) ∧
    (s.config.expectedWidth = 1 → exec (.edge line .low ts) s = .next { s with
      sr := 0
      cnt := 0
      lu := 0
      luValid := false
      le := ts
      leValid := true
      result := ⟨none, none⟩
      events := [.bit line (if line = .data0 then .zero else .one),
        .incomplete s.sr s.cnt.toNat,
        decodedWith s.config (if line = .data0 then 0 else 1) 1] })

/-- R106: TICK. (Of `result`, which R106 does not speak of, nothing is said: log 7.) -/
def Obligations.TickFollowsItsRule : Prop :=
  ∀ (now : Timestamp) (s : State),
    (Instr.tick now).opcode = 5 ∧
    ∃ r, exec (.tick now) s = .next
      (if s.cnt ≠ 0 ∧ now.toNat > s.lu.toNat + s.config.bitTimeout.toNat then
        { s with
          sr := 0, cnt := 0, lu := 0, luValid := false
          result := r
          events := [if s.cnt = s.config.expectedWidth then decodedWith s.config s.sr s.cnt.toNat
            else .incomplete s.sr s.cnt.toNat] }
      else { s with result := r, events := [] })

/-- Two orders of one accepted edge and one tick at the same time, on a partial buffer whose timeout has just elapsed,
give different outputs (60_exceptions.md section 4; "Both are behaviours of the hardware", D22). -/
def Obligations.EdgeAndTickDoNotCommute : Prop :=
  ∀ (line : Line) (now : Timestamp) (s : State), s.Inv →
    s.cnt ≠ 0 → s.cnt.toNat + 1 < s.config.expectedWidth.toNat →
    s.lu.toNat + s.config.bitTimeout.toNat < now.toNat → s.debounceAccepts now = true →
    (∃ t u, exec (.tick now) s = .next t ∧ exec (.edge line .low now) t = .next u ∧
      t.events = [.incomplete s.sr s.cnt.toNat] ∧ u.cnt = 1) ∧
    (∃ t u, exec (.edge line .low now) s = .next t ∧ exec (.tick now) t = .next u ∧
      t.cnt = s.cnt + 1 ∧ u.events = [] ∧ u.cnt = s.cnt + 1 ∧ u.lu = now)

/-- At most one command takes the decode decision for a completed buffer (20_memory.md section 5): a transaction that
emits a decode outcome leaves the buffer empty, so that a TICK after it emits nothing and a DECODE finds no frame. -/
def Obligations.DecodeDecisionIsTakenOnce : Prop :=
  ∀ (i : Instr) (s : State), s.Inv → isTransaction i = true →
    ∃ t, exec i s = .next t ∧
      (((∃ r f, Event.frame r f ∈ t.events) ∨ ∃ c, Event.decodeError c ∈ t.events) →
        t.BufferEmpty ∧
        (∀ now, ∃ u, exec (.tick now) t = .next u ∧ u.events = []) ∧
        ∃ u, exec .decode t = .next u ∧
          u.events = [.decodeError (.formatMismatch 0 s.config.expectedWidth.toNat)])

/-! ### Errors (60_exceptions.md) -/

/-- R122: FormatMismatch is raised exactly by a DECODE on a buffer that is not full, as that command's only event, with
the state unchanged; its code is 1. -/
def Obligations.FormatMismatchComesOnlyFromDecode : Prop :=
  (∀ n w, causeCode (.formatMismatch n w) = 1) ∧
  ∀ (i : Instr) (s : State), ∃ t, exec i s = .next t ∧
    (∀ n w, Event.decodeError (.formatMismatch n w) ∈ t.events ↔
      i = .decode ∧ s.cnt ≠ s.config.expectedWidth ∧ n = s.cnt.toNat ∧ w = s.config.expectedWidth.toNat) ∧
    (i = .decode → s.cnt ≠ s.config.expectedWidth →
      t = { s with
        result := t.result
        events := [.decodeError (.formatMismatch s.cnt.toNat s.config.expectedWidth.toNat)] })

/-- R123: UnsupportedFormat is raised only for a width that is neither 26 nor 34 with `DEGRADED_MODE = 0`; a hardware
configured that way raises it on every completed frame, then with an empty buffer inside a transaction, and never emits
an EV_FRAME. Its code is 2. -/
def Obligations.UnsupportedFormatReplacesEveryFrame : Prop :=
  (∀ w, causeCode (.unsupportedFormat w) = 2) ∧
  ∀ (i : Instr) (s : State), ∃ t, exec i s = .next t ∧
    (∀ w, Event.decodeError (.unsupportedFormat w) ∈ t.events →
      w = s.config.expectedWidth.toNat ∧ w ≠ 26 ∧ w ≠ 34 ∧ s.config.degradedMode = false ∧
      (i = .decode → t = { s with result := t.result, events := [.decodeError (.unsupportedFormat w)] }) ∧
      (i ≠ .decode → isTransaction i = true ∧ t.BufferEmpty)) ∧
    (s.config.expectedWidth ≠ 26 → s.config.expectedWidth ≠ 34 → s.config.degradedMode = false →
      (∀ r f, Event.frame r f ∉ t.events) ∧
      (i = .decode → s.cnt = s.config.expectedWidth →
        Event.decodeError (.unsupportedFormat s.config.expectedWidth.toNat) ∈ t.events) ∧
      (∀ line ts, i = .edge line .low ts → s.debounceAccepts ts = true →
        (s.cnt ≠ s.config.expectedWidth ∧ s.cnt + 1 = s.config.expectedWidth ∨
          s.cnt = s.config.expectedWidth ∧ s.config.expectedWidth = 1) →
        Event.decodeError (.unsupportedFormat s.config.expectedWidth.toNat) ∈ t.events) ∧
      (∀ now, i = .tick now → s.timedOut now = true → s.cnt = s.config.expectedWidth →
        Event.decodeError (.unsupportedFormat s.config.expectedWidth.toNat) ∈ t.events))

/-- R125: the diagnostic EV_INCOMPLETE has exactly two causes, an append that finds the buffer full and a timeout on a
partial buffer; it reports the buffer as it was, which is never empty, once, and the buffer is cleared in the same
command: what is left is at most the new bit. -/
def Obligations.IncompleteFrameHasTwoCauses : Prop :=
  ∀ (i : Instr) (s : State), s.Inv → ∃ t, exec i s = .next t ∧
    (∀ v n, Event.incomplete v n ∈ t.events ↔
      v = s.sr ∧ n = s.cnt.toNat ∧
      ((s.cnt = s.config.expectedWidth ∧
          ((∃ bit now, i = .append bit now) ∨
            ∃ line ts, i = .edge line .low ts ∧ s.debounceAccepts ts = true)) ∨
        (s.cnt ≠ s.config.expectedWidth ∧
          ∃ now, (i = .checkTimeout now ∨ i = .tick now) ∧ s.timedOut now = true))) ∧
    (∀ v n, Event.incomplete v n ∈ t.events →
      1 ≤ n ∧ n ≤ s.config.expectedWidth.toNat ∧ t.events.count (.incomplete v n) = 1 ∧
      (t.BufferEmpty ∨
        (s.cnt = s.config.expectedWidth ∧ t.cnt = 1 ∧
          ∃ now, commandTime i = some now ∧ t.lu = now ∧ t.luValid = true)))

/-- R130: after any error or diagnostic the hardware is ready for the next command: after EV_INCOMPLETE with an empty
buffer (plus, on overrun, the new bit), after FormatMismatch with the state unchanged, after UnsupportedFormat inside a
transaction with an empty buffer; EV_INCOMPLETE and EV_FRAME come together only in an EDGE with `W = 1`. -/
def Obligations.AfterAnErrorTheHardwareIsReady : Prop :=
  ∀ (i : Instr) (s : State), s.Inv → ∃ t, exec i s = .next t ∧
    (∀ j, ∃ u, exec j t = .next u) ∧
    (∀ v n, Event.incomplete v n ∈ t.events →
      t.BufferEmpty ∨ (s.cnt = s.config.expectedWidth ∧ t.cnt = 1)) ∧
    (∀ n w, Event.decodeError (.formatMismatch n w) ∈ t.events →
      { t with result := s.result, events := s.events } = s) ∧
    (∀ w, Event.decodeError (.unsupportedFormat w) ∈ t.events → isTransaction i = true → t.BufferEmpty) ∧
    (∀ v n r f, Event.incomplete v n ∈ t.events → Event.frame r f ∈ t.events →
      s.config.expectedWidth = 1 ∧ ∃ line ts, i = .edge line .low ts)

/-- R124: no rule raises SourceInitFailure, and with no command ever issued the hardware stays in its reset state, for
every legal configuration. -/
def Obligations.SourceInitFailureIsNeverRaised : Prop :=
  (∀ (i : Instr) (s : State), ∃ t, exec i s = .next t ∧
    ∀ e ∈ t.events, eventCause e ≠ some .sourceInitFailure) ∧
  ∀ c : Configuration, 1 ≤ c.expectedWidth.toNat → c.expectedWidth.toNat ≤ 34 →
    step (State.powerOn c) = .next (State.powerOn c)

/-- The codes and levels of the events and the codes of the causes (sections 1 and 2; D20). -/
def Obligations.EventAndCauseCodes : Prop :=
  (∀ e : Event, (eventCode e, eventLevel e) ∈
    [(1, Severity.debug), (2, Severity.info), (3, Severity.warning), (4, Severity.error)]) ∧
  (∀ line bit, eventCode (.bit line bit) = 1) ∧ (∀ r f, eventCode (.frame r f) = 2) ∧
  (∀ v n, eventCode (.incomplete v n) = 3 ∧ eventCause (.incomplete v n) = some (.incompleteFrame v n) ∧
    eventBits (.incomplete v n) = some (binaryString v n, n)) ∧
  (∀ c, eventCode (.decodeError c) = 4 ∧ eventCause (.decodeError c) = some c) ∧
  (∀ n w, causeCode (.formatMismatch n w) = 1) ∧ (∀ w, causeCode (.unsupportedFormat w) = 2) ∧
  (∀ v n, causeCode (.incompleteFrame v n) = 3) ∧ causeCode .sourceInitFailure = 4

/-! ### Who may touch what (10_state.md, 70_reset_and_hazards.md) -/

/-- R15: the frame buffer is mutated only by append and reset. After any command it is as before, or empty, or the old
sequence with the command's bit added, or that bit alone; DECODE never writes it. -/
def Obligations.BufferIsMutatedOnlyByAppendAndClear : Prop :=
  ∀ (i : Instr) (s : State), ∃ t, exec i s = .next t ∧
    ((t.sr = s.sr ∧ t.cnt = s.cnt ∧ t.lu = s.lu ∧ t.luValid = s.luValid) ∨
      (i ≠ .decode ∧ t.BufferEmpty) ∨
      ∃ (bit : Bit) (now : Timestamp),
        (i = .append bit now ∨ ∃ line, i = .edge line .low now) ∧
        t.lu = now ∧ t.luValid = true ∧
        ((t.cnt = s.cnt + 1 ∧ t.sr = BitVec.ofNat 34 (2 * s.sr.toNat + bit.code.toNat)) ∨
          (t.cnt = 1 ∧ t.sr = BitVec.ofNat 34 bit.code.toNat)))

/-- Only EDGE reads or writes the debounce memory (10_state.md section 3, D16): any other command leaves `LE`, `LE_VALID`
as they were, and does the same whatever they hold. -/
def Obligations.OnlyEdgeTouchesTheDebounceMemory : Prop :=
  ∀ (i : Instr) (s : State) (le : Timestamp) (leValid : Bool),
    (∀ line level ts, i ≠ .edge line level ts) →
    ∃ t, exec i s = .next t ∧ t.le = s.le ∧ t.leValid = s.leValid ∧
      exec i { s with le := le, leValid := leValid } = .next { t with le := le, leValid := leValid }

/-- R146: a directly issued APPEND bypasses the guard and the EV_BIT event: it does the same whatever the debounce memory
and interval are, inside the window too, where EDGE drops the edge and leaves the buffer alone. -/
def Obligations.AppendBypassesTheGuard : Prop :=
  ∀ (bit : Bit) (line : Line) (now : Timestamp) (s : State) (le : Timestamp) (leValid : Bool)
    (interval : Timestamp),
    ∃ t, exec (.append bit now) s = .next t ∧ t.lu = now ∧ acceptedBits t.events = 0 ∧
      exec (.append bit now) { s with
        le := le, leValid := leValid, config := { s.config with debounceInterval := interval } } =
        .next { t with
          le := le, leValid := leValid, config := { s.config with debounceInterval := interval } } ∧
      (s.leValid = true → now.toNat < s.le.toNat + s.config.debounceInterval.toNat →
        ∃ u, exec (.edge line .low now) s = .next u ∧ u.events = [] ∧
          u.sr = s.sr ∧ u.cnt = s.cnt ∧ u.lu = s.lu ∧ u.luValid = s.luValid)

/-- The environment's duties around DECODE (70_reset_and_hazards.md section 3, D18): after an APPEND that returned
`frame_ready` a DECODE finds the frame; after a CHECK_TIMEOUT that returned it a DECODE fails with FormatMismatch, and
an extra RESET is harmless; a missed RESET is not silent: the next APPEND reports the stale frame. -/
def Obligations.FrameReadyAndTheCommandsAfterIt : Prop :=
  ∀ (s : State), s.Inv →
    (∀ bit now, ∃ t, exec (.append bit now) s = .next t ∧
      ∀ p, t.result.frameReady = some p →
        (∃ u, exec .decode t = .next u ∧ u.events = [decodedWith s.config p.v s.config.expectedWidth.toNat]) ∧
        ∀ bit' now', ∃ u, exec (.append bit' now') t = .next u ∧
          u.events = [.incomplete p.v s.config.expectedWidth.toNat]) ∧
    (∀ now, ∃ t, exec (.checkTimeout now) s = .next t ∧
      ∀ p, t.result.frameReady = some p →
        (∃ u, exec .decode t = .next u ∧
          u.events = [.decodeError (.formatMismatch 0 s.config.expectedWidth.toNat)]) ∧
        ∃ u, exec .reset t = .next u ∧ u.sr = t.sr ∧ u.cnt = t.cnt ∧ u.lu = t.lu ∧ u.luValid = t.luValid)

/-- With ticks at most `period` apart, a partial or full buffer is flushed by the first tick after its timeout, between
`BIT_TIMEOUT` and `BIT_TIMEOUT + period` after its last bit (60_exceptions.md section 7); a tick before that leaves all
state as it was and emits nothing. -/
def Obligations.TickFlushesWithinOnePeriod : Prop :=
  ∀ (first second : Timestamp) (period : Nat) (s : State), s.Inv → s.cnt ≠ 0 →
    second.toNat ≤ first.toNat + period →
    first.toNat ≤ s.lu.toNat + s.config.bitTimeout.toNat →
    s.lu.toNat + s.config.bitTimeout.toNat < second.toNat →
    ∃ t u, exec (.tick first) s = .next t ∧ t = { s with result := t.result, events := [] } ∧
      exec (.tick second) t = .next u ∧ u.BufferEmpty ∧ u.events.length = 1 ∧
      second.toNat ≤ s.lu.toNat + s.config.bitTimeout.toNat + period

/-! ### Reset and invariants -/

/-- What power-on leaves (10_state.md section 7, D21): every register outside the configuration is zero, the
configuration is the one loaded, `DEGRADED_MODE` is 1 unless overridden (D11), and the first falling edge is accepted
whatever its time. -/
def Obligations.PowerOnClearsEveryRegister : Prop :=
  (∀ c : Configuration,
    (State.powerOn c).BufferEmpty ∧ (State.powerOn c).le = 0 ∧ (State.powerOn c).leValid = false ∧
    (State.powerOn c).config = c ∧
    ∀ line ts, ∃ t, exec (.edge line .low ts) (State.powerOn c) = .next t ∧ t.le = ts ∧ t.leValid = true) ∧
  State.reset = State.powerOn State.reset.config ∧ State.reset.config.degradedMode = true

/-- The invariant holds after power-on (D21) with every legal configuration, and at `State.reset` (whose configuration is the
model's choice, log 1). -/
def Obligations.PowerOnStateMeetsTheInvariant : Prop :=
  (∀ c : Configuration, configLegal c = true → (State.powerOn c).Inv) ∧ State.reset.Inv

/-- Every step keeps the invariant: `CNT <= W <= 34`, `SR < 2^CNT`, `LU_VALID` exactly when the buffer is non-empty
(10_state.md section 2), cleared registers 0 (D7), and the configuration legal. -/
def Obligations.EveryStepKeepsTheInvariant : Prop :=
  ∀ s t : State, s.Inv → step s = .next t → t.Inv

/-- In a trace made only of EDGE and TICK commands the buffer is never full between commands (42_frontend_controller.md
section 5 (a)), every command completes, and no FormatMismatch occurs ((d)): for every such trace of any length, from
every good state whose buffer is not full. (The run over the trace, and its idle steps past the end, are the model's:
log 3 and log 4.) -/
def Obligations.TransactionsNeverLeaveAFullBuffer : Prop :=
  ∀ (k : Nat) (s : State), s.Inv → s.cnt.toNat < s.config.expectedWidth.toNat →
    transactionsOnly s.trace = true →
    ∃ t, Host.Core.run Sys2Proof.core k s = .next t ∧ t.Inv ∧
      t.cnt.toNat < t.config.expectedWidth.toNat ∧ t.trace = s.trace.drop k ∧
      ∀ n w, Event.decodeError (.formatMismatch n w) ∉ eventsAlong k s

/-- Conservation of the NUMBER of bits: along any trace of EDGE and TICK commands, the count at the start plus the number
of bits the front-end accepted is the count at the end plus the number of bits the events account for. It goes with
42_frontend_controller.md section 5 (c), and says nothing of which bits these are. An EV_DECODE_ERROR for an unsupported
width is counted as `W` bits, although it carries none and its frame is lost (60_exceptions.md section 2). (The run over
the trace, and its idle steps past the end, are the model's: log 3 and log 4.) -/
def Obligations.NumberOfAcceptedBitsIsConserved : Prop :=
  ∀ (k : Nat) (s : State), s.Inv → transactionsOnly s.trace = true →
    ∃ t, Host.Core.run Sys2Proof.core k s = .next t ∧
      s.cnt.toNat + acceptedBits (eventsAlong k s) = t.cnt.toNat + reportedBits (eventsAlong k s)

/-- Along a trace of commands whose timestamps never decrease (70_reset_and_hazards.md section 3), `LU` and `LE` are
never ahead of a later command's time, so that every timeout and debounce test is one the source defines
(92_eei_decisions.md D5). (The run over the trace, and its idle steps past the end, are the model's: log 3 and log 4.) -/
def Obligations.MonotonicTimeStaysAheadOfTheRegisters : Prop :=
  ∀ (k : Nat) (s : State) (earliest : Timestamp) (commands : List Instr), configLegal s.config = true →
    s.trace = commands.map encode → monotonicFrom earliest commands = true →
    s.lu.toNat ≤ earliest.toNat → s.le.toNat ≤ earliest.toNat →
    ∃ t, Host.Core.run Sys2Proof.core k s = .next t ∧
      ∀ i ∈ commands.drop k, ∀ now, commandTime i = some now →
        t.lu.toNat ≤ now.toNat ∧ t.le.toNat ≤ now.toNat

/-! ### Whole reads -/

/-- Incremental accumulation (40_accumulator.md section 5): from the empty buffer, APPENDs of at most `W` bits, run as a
trace of command words, leave the value of the sequence, its length and the last time; the last one returns
`frame_ready` exactly when the count is `W`, and it returns no `incomplete` and emits nothing. (Taken at every prefix,
this speaks of every one of the commands. The trace is the model's: log 3.) -/
def Obligations.AppendsAccumulateTheSequence : Prop :=
  ∀ (s : State) (earlier : List (Bit × Timestamp)) (last : Bit × Timestamp) (rest : List CommandWord),
    s.Inv → s.cnt = 0 → earlier.length + 1 ≤ s.config.expectedWidth.toNat →
    s.trace = (earlier ++ [last]).map (fun p => encode (.append p.1 p.2)) ++ rest →
    Host.Core.run Sys2Proof.core (earlier.length + 1) s = .next { s with
      sr := BitVec.ofNat 34 (bitsValue ((earlier ++ [last]).map Prod.fst))
      cnt := BitVec.ofNat 6 (earlier.length + 1)
      lu := last.2
      luValid := true
      result := ⟨if earlier.length + 1 = s.config.expectedWidth.toNat then
          some ⟨BitVec.ofNat 34 (bitsValue ((earlier ++ [last]).map Prod.fst)), earlier.length + 1⟩ else none,
        none⟩
      events := []
      trace := rest }

/-- Incremental against batch (41_frame_decoder.md section 1, laws of Decode (c)): appending the bits one by one and
then issuing DECODE emits what Decode gives on the full sequence at once. (The trace is the model's: log 3.) -/
def Obligations.IncrementalDecodeEqualsBatchDecode : Prop :=
  ∀ (s : State) (stamped : List (Bit × Timestamp)) (rest : List CommandWord),
    s.Inv → s.cnt = 0 → stamped.length = s.config.expectedWidth.toNat →
    s.trace = stamped.map (fun p => encode (.append p.1 p.2)) ++ encode .decode :: rest →
    ∃ t, Host.Core.run Sys2Proof.core (stamped.length + 1) s = .next t ∧
      t.events = [outcomeEvent (decodeSequence (stamped.map Prod.fst) s.config.expectedWidth.toNat
        s.config.degradedMode)] ∧
      t.cnt = s.config.expectedWidth

/-- One card read (42_frontend_controller.md sections 1 to 3, 30_encoding.md section 6): from an empty buffer, `W` pulses
spaced at least the debounce interval apart, written as one BITS line and run as a trace of command words, end with the
EV_BIT of the last bit and the outcome of Decode on the whole sequence, and leave the buffer empty and `LE` at the last
pulse (the spec's own choices D16, D18, D27). The model's choices in it: the trace (log 3); no result signals come out
(log 7); DATA0 is ZERO and DATA1 is ONE (log 19). -/
def Obligations.CardReadEmitsItsFrame : Prop :=
  ∀ (s : State) (bits : List Bit) (lastBit : Bit) (t0 d : Nat) (words rest : List CommandWord),
    s.Inv → s.cnt = 0 → bits.length + 1 = s.config.expectedWidth.toNat →
    s.config.debounceInterval.toNat ≤ d → s.debounceAccepts (BitVec.ofNat 64 t0) = true →
    AsmLine.words (.bits (bits ++ [lastBit]) t0 d) = some words → s.trace = words ++ rest →
    Host.Core.run Sys2Proof.core (bits.length + 1) s = .next { s with
      sr := 0
      cnt := 0
      lu := 0
      luValid := false
      le := BitVec.ofNat 64 (t0 + bits.length * d)
      leValid := true
      result := ⟨none, none⟩
      events := [.bit (if lastBit = .zero then .data0 else .data1) lastBit,
        outcomeEvent (decodeSequence (bits ++ [lastBit]) s.config.expectedWidth.toNat s.config.degradedMode)]
      trace := rest }
end

