-- ==== Sys2Proof/Laws/Encode.lean ====
section
/-! SUPPORT. The fields of a packed command word, bit by bit and field by field. -/

namespace Sys2Proof

/-- Every bit of a packed word: the layout of R41. -/
theorem packCommand_getLsbD (op : BitVec 4) (a b : Bool) (ts : Timestamp) (i : Nat) :
    (packCommand op a b ts).getLsbD i =
      (if i < 64 then ts.getLsbD i else if i = 64 then b else if i = 65 then a else
        if i < 68 then false else op.getLsbD (i - 68)) := by
  unfold packCommand
  simp only [BitVec.getLsbD_or, BitVec.getLsbD_shiftLeft, BitVec.getLsbD_setWidth, BitVec.getLsbD_ofBool]
  split
  · have h1 : decide (i < 68) = true := by simp; omega
    have h2 : decide (i < 65) = true := by simp; omega
    have h3 : decide (i < 64) = true := by simp; omega
    simp [h1, h2, h3]; omega
  · split
    · subst i; simp
    · split
      · subst i; simp
      · split
        · have h1 : decide (i < 68) = true := by simp; omega
          have : ¬ (i - 65 = 0) := by omega
          have h2 : ¬ (i - 64 = 0) := by omega
          have h3 : ts.getLsbD i = false := by apply BitVec.getLsbD_of_ge; omega
          simp [this, h2, h3, h1]
        · have : (i - 65 = 0) = False := by simp; omega
          have h2 : (i - 64 = 0) = False := by simp; omega
          have h3 : ts.getLsbD i = false := by apply BitVec.getLsbD_of_ge; omega
          have h4 : decide (i < 68) = false := by simp; omega
          simp [this, h2, h3, h4]
          by_cases h : i < 72
          · simp [h]; intro _; omega
          · have : op.getLsbD (i - 68) = false := by apply BitVec.getLsbD_of_ge; omega
            simp [this]

@[simp] theorem cmdOp_packCommand (op : BitVec 4) (a b : Bool) (ts : Timestamp) :
    cmdOp (packCommand op a b ts) = op := by
  unfold cmdOp
  ext i hi
  simp only [BitVec.getElem_extractLsb', packCommand_getLsbD]
  rw [if_neg (by omega), if_neg (by omega), if_neg (by omega), if_neg (by omega)]
  simp
  rw [BitVec.getLsbD_eq_getElem hi]

@[simp] theorem cmdTs_packCommand (op : BitVec 4) (a b : Bool) (ts : Timestamp) :
    cmdTs (packCommand op a b ts) = ts := by
  unfold cmdTs
  ext i hi
  simp only [BitVec.getElem_extractLsb', packCommand_getLsbD]
  rw [if_pos (by omega)]
  simp
  rw [BitVec.getLsbD_eq_getElem hi]

@[simp] theorem cmdRsv_packCommand (op : BitVec 4) (a b : Bool) (ts : Timestamp) :
    cmdRsv (packCommand op a b ts) = 0 := by
  unfold cmdRsv
  ext i hi
  simp only [BitVec.getElem_extractLsb', packCommand_getLsbD]
  rw [if_neg (by omega), if_neg (by omega), if_neg (by omega), if_pos (by omega)]
  simp

@[simp] theorem cmdA_packCommand (op : BitVec 4) (a b : Bool) (ts : Timestamp) :
    cmdA (packCommand op a b ts) = a := by
  unfold cmdA
  rw [packCommand_getLsbD]; simp

@[simp] theorem cmdB_packCommand (op : BitVec 4) (a b : Bool) (ts : Timestamp) :
    cmdB (packCommand op a b ts) = b := by
  unfold cmdB
  rw [packCommand_getLsbD]; simp

/-- A word with `rsv` 0 is packed from its own fields. -/
theorem word_eq_packCommand (w : CommandWord) (h : cmdRsv w = 0) :
    w = packCommand (cmdOp w) (cmdA w) (cmdB w) (cmdTs w) := by
  have h0 : w.getLsbD 66 = false := by
    have := congrArg (fun x => x.getLsbD 0) h
    simpa [cmdRsv] using this
  have h1 : w.getLsbD 67 = false := by
    have := congrArg (fun x => x.getLsbD 1) h
    simpa [cmdRsv] using this
  apply BitVec.eq_of_getLsbD_eq
  intro i hi
  rw [packCommand_getLsbD]
  unfold cmdOp cmdA cmdB cmdTs
  split
  · simp [*]
  split
  · simp [*]
  split
  · simp [*]
  split
  · have : i = 66 ∨ i = 67 := by omega
    rcases this with rfl | rfl <;> assumption
  · have : i - 68 < 4 := by omega
    have h5 : 68 + (i - 68) = i := by omega
    simp [this, h5]

/-! ### The codes of the enumerations are inverse to each other -/

@[simp] theorem Bit.ofCode_code (b : Bit) : Bit.ofCode b.code = b := by cases b <;> rfl
@[simp] theorem Bit.code_ofCode (c : Bool) : (Bit.ofCode c).code = c := by cases c <;> rfl
@[simp] theorem Line.ofCode_code (l : Line) : Line.ofCode l.code = l := by cases l <;> rfl
@[simp] theorem Line.code_ofCode (c : Bool) : (Line.ofCode c).code = c := by cases c <;> rfl
@[simp] theorem Level.ofCode_code (l : Level) : Level.ofCode l.code = l := by cases l <;> rfl
@[simp] theorem Level.code_ofCode (c : Bool) : (Level.ofCode c).code = c := by cases c <;> rfl

end Sys2Proof
end

