-- ==== Sys2Proof/Laws/Operands.lean ====
section
/-! SUPPORT. Bit sequences and digit strings, one element at a time. -/

namespace Sys2Proof

/-- A digit's character has the digit's value. -/
@[simp] theorem digitValue_hexDigit (nibble : BitVec 4) : digitValue (hexDigit nibble) = some nibble.toNat := by
  revert nibble; decide

theorem parseBase_nil (base : Nat) : parseBase base [] = some 0 := rfl

/-- One more digit on the right. -/
theorem parseBase_append_one (base : Nat) (cs : List Char) (c : Char) (m d : Nat)
    (h : parseBase base cs = some m) (hd : digitValue c = some d) (hlt : d < base) :
    parseBase base (cs ++ [c]) = some (base * m + d) := by
  unfold parseBase at h ⊢
  rw [List.foldl_append, h]
  simp [hd, hlt]

namespace Machine

theorem bitsValue_nil : bitsValue [] = 0 := rfl

/-- One more bit on the right: doubling and adding it. -/
theorem bitsValue_append_one (bits : List Bit) (b : Bit) :
    bitsValue (bits ++ [b]) = 2 * bitsValue bits + b.code.toNat := by
  simp [bitsValue, List.foldl_append]

theorem bitsValue_lt (bits : List Bit) : bitsValue bits < 2 ^ bits.length := by
  induction bits using List.reverseRecOn with
  | nil => simp [bitsValue]
  | append_singleton bits b ih =>
    rw [bitsValue_append_one]
    simp only [List.length_append, List.length_singleton, Nat.pow_succ]
    cases b <;> simp [Bit.code] <;> omega

/-- The value of at most 34 bits fits the register. -/
theorem bitsValue_toNat (bits : List Bit) (h : bits.length ≤ 34) :
    (BitVec.ofNat 34 (bitsValue bits)).toNat = bitsValue bits := by
  rw [BitVec.toNat_ofNat, Nat.mod_eq_of_lt]
  exact lt_of_lt_of_le (bitsValue_lt bits) (Nat.pow_le_pow_right (by norm_num) h)

/-- DATA0 is ZERO, DATA1 is ONE. -/
theorem bitOfLine_eq (l : Line) : bitOfLine l = if l = .data0 then .zero else .one := by
  cases l <;> rfl

end Machine

end Sys2Proof
end

