-- ==== Sys2Proof/Laws/State.lean ====
section
/-! SUPPORT. One lemma per field per update of State, true by rfl. -/

namespace Sys2Proof.Machine

variable (s : State)

@[simp] theorem State.beginCommand_sr : s.beginCommand.sr = s.sr := rfl
@[simp] theorem State.beginCommand_cnt : s.beginCommand.cnt = s.cnt := rfl
@[simp] theorem State.beginCommand_lu : s.beginCommand.lu = s.lu := rfl
@[simp] theorem State.beginCommand_luValid : s.beginCommand.luValid = s.luValid := rfl
@[simp] theorem State.beginCommand_le : s.beginCommand.le = s.le := rfl
@[simp] theorem State.beginCommand_leValid : s.beginCommand.leValid = s.leValid := rfl
@[simp] theorem State.beginCommand_config : s.beginCommand.config = s.config := rfl
@[simp] theorem State.beginCommand_result : s.beginCommand.result = .absent := rfl
@[simp] theorem State.beginCommand_events : s.beginCommand.events = [] := rfl
@[simp] theorem State.beginCommand_trace : s.beginCommand.trace = s.trace := rfl

@[simp] theorem State.emit_sr (e : Event) : (s.emit e).sr = s.sr := rfl
@[simp] theorem State.emit_cnt (e : Event) : (s.emit e).cnt = s.cnt := rfl
@[simp] theorem State.emit_lu (e : Event) : (s.emit e).lu = s.lu := rfl
@[simp] theorem State.emit_luValid (e : Event) : (s.emit e).luValid = s.luValid := rfl
@[simp] theorem State.emit_le (e : Event) : (s.emit e).le = s.le := rfl
@[simp] theorem State.emit_leValid (e : Event) : (s.emit e).leValid = s.leValid := rfl
@[simp] theorem State.emit_config (e : Event) : (s.emit e).config = s.config := rfl
@[simp] theorem State.emit_result (e : Event) : (s.emit e).result = s.result := rfl
@[simp] theorem State.emit_events (e : Event) : (s.emit e).events = s.events ++ [e] := rfl
@[simp] theorem State.emit_trace (e : Event) : (s.emit e).trace = s.trace := rfl

@[simp] theorem State.withResult_sr (r : Result) : (s.withResult r).sr = s.sr := rfl
@[simp] theorem State.withResult_cnt (r : Result) : (s.withResult r).cnt = s.cnt := rfl
@[simp] theorem State.withResult_lu (r : Result) : (s.withResult r).lu = s.lu := rfl
@[simp] theorem State.withResult_luValid (r : Result) : (s.withResult r).luValid = s.luValid := rfl
@[simp] theorem State.withResult_le (r : Result) : (s.withResult r).le = s.le := rfl
@[simp] theorem State.withResult_leValid (r : Result) : (s.withResult r).leValid = s.leValid := rfl
@[simp] theorem State.withResult_config (r : Result) : (s.withResult r).config = s.config := rfl
@[simp] theorem State.withResult_result (r : Result) : (s.withResult r).result = r := rfl
@[simp] theorem State.withResult_events (r : Result) : (s.withResult r).events = s.events := rfl
@[simp] theorem State.withResult_trace (r : Result) : (s.withResult r).trace = s.trace := rfl

@[simp] theorem State.clearBuffer_sr : s.clearBuffer.sr = 0 := rfl
@[simp] theorem State.clearBuffer_cnt : s.clearBuffer.cnt = 0 := rfl
@[simp] theorem State.clearBuffer_lu : s.clearBuffer.lu = 0 := rfl
@[simp] theorem State.clearBuffer_luValid : s.clearBuffer.luValid = false := rfl
@[simp] theorem State.clearBuffer_le : s.clearBuffer.le = s.le := rfl
@[simp] theorem State.clearBuffer_leValid : s.clearBuffer.leValid = s.leValid := rfl
@[simp] theorem State.clearBuffer_config : s.clearBuffer.config = s.config := rfl
@[simp] theorem State.clearBuffer_result : s.clearBuffer.result = s.result := rfl
@[simp] theorem State.clearBuffer_events : s.clearBuffer.events = s.events := rfl
@[simp] theorem State.clearBuffer_trace : s.clearBuffer.trace = s.trace := rfl

@[simp] theorem State.shiftIn_sr (b : Bit) (t : Timestamp) : (s.shiftIn b t).sr = (s.sr <<< 1) ||| (BitVec.ofBool b.code).setWidth 34 := rfl
@[simp] theorem State.shiftIn_cnt (b : Bit) (t : Timestamp) : (s.shiftIn b t).cnt = s.cnt + 1 := rfl
@[simp] theorem State.shiftIn_lu (b : Bit) (t : Timestamp) : (s.shiftIn b t).lu = t := rfl
@[simp] theorem State.shiftIn_luValid (b : Bit) (t : Timestamp) : (s.shiftIn b t).luValid = true := rfl
@[simp] theorem State.shiftIn_le (b : Bit) (t : Timestamp) : (s.shiftIn b t).le = s.le := rfl
@[simp] theorem State.shiftIn_leValid (b : Bit) (t : Timestamp) : (s.shiftIn b t).leValid = s.leValid := rfl
@[simp] theorem State.shiftIn_config (b : Bit) (t : Timestamp) : (s.shiftIn b t).config = s.config := rfl
@[simp] theorem State.shiftIn_result (b : Bit) (t : Timestamp) : (s.shiftIn b t).result = s.result := rfl
@[simp] theorem State.shiftIn_events (b : Bit) (t : Timestamp) : (s.shiftIn b t).events = s.events := rfl
@[simp] theorem State.shiftIn_trace (b : Bit) (t : Timestamp) : (s.shiftIn b t).trace = s.trace := rfl

@[simp] theorem State.startBuffer_sr (b : Bit) (t : Timestamp) : (s.startBuffer b t).sr = (BitVec.ofBool b.code).setWidth 34 := rfl
@[simp] theorem State.startBuffer_cnt (b : Bit) (t : Timestamp) : (s.startBuffer b t).cnt = 1 := rfl
@[simp] theorem State.startBuffer_lu (b : Bit) (t : Timestamp) : (s.startBuffer b t).lu = t := rfl
@[simp] theorem State.startBuffer_luValid (b : Bit) (t : Timestamp) : (s.startBuffer b t).luValid = true := rfl
@[simp] theorem State.startBuffer_le (b : Bit) (t : Timestamp) : (s.startBuffer b t).le = s.le := rfl
@[simp] theorem State.startBuffer_leValid (b : Bit) (t : Timestamp) : (s.startBuffer b t).leValid = s.leValid := rfl
@[simp] theorem State.startBuffer_config (b : Bit) (t : Timestamp) : (s.startBuffer b t).config = s.config := rfl
@[simp] theorem State.startBuffer_result (b : Bit) (t : Timestamp) : (s.startBuffer b t).result = s.result := rfl
@[simp] theorem State.startBuffer_events (b : Bit) (t : Timestamp) : (s.startBuffer b t).events = s.events := rfl
@[simp] theorem State.startBuffer_trace (b : Bit) (t : Timestamp) : (s.startBuffer b t).trace = s.trace := rfl

@[simp] theorem State.setLastEdge_sr (t : Timestamp) : (s.setLastEdge t).sr = s.sr := rfl
@[simp] theorem State.setLastEdge_cnt (t : Timestamp) : (s.setLastEdge t).cnt = s.cnt := rfl
@[simp] theorem State.setLastEdge_lu (t : Timestamp) : (s.setLastEdge t).lu = s.lu := rfl
@[simp] theorem State.setLastEdge_luValid (t : Timestamp) : (s.setLastEdge t).luValid = s.luValid := rfl
@[simp] theorem State.setLastEdge_le (t : Timestamp) : (s.setLastEdge t).le = t := rfl
@[simp] theorem State.setLastEdge_leValid (t : Timestamp) : (s.setLastEdge t).leValid = true := rfl
@[simp] theorem State.setLastEdge_config (t : Timestamp) : (s.setLastEdge t).config = s.config := rfl
@[simp] theorem State.setLastEdge_result (t : Timestamp) : (s.setLastEdge t).result = s.result := rfl
@[simp] theorem State.setLastEdge_events (t : Timestamp) : (s.setLastEdge t).events = s.events := rfl
@[simp] theorem State.setLastEdge_trace (t : Timestamp) : (s.setLastEdge t).trace = s.trace := rfl

@[simp] theorem State.reportError_sr (c : ErrorCause) : (s.reportError c).sr = s.sr := rfl
@[simp] theorem State.reportError_cnt (c : ErrorCause) : (s.reportError c).cnt = s.cnt := rfl
@[simp] theorem State.reportError_lu (c : ErrorCause) : (s.reportError c).lu = s.lu := rfl
@[simp] theorem State.reportError_luValid (c : ErrorCause) : (s.reportError c).luValid = s.luValid := rfl
@[simp] theorem State.reportError_le (c : ErrorCause) : (s.reportError c).le = s.le := rfl
@[simp] theorem State.reportError_leValid (c : ErrorCause) : (s.reportError c).leValid = s.leValid := rfl
@[simp] theorem State.reportError_config (c : ErrorCause) : (s.reportError c).config = s.config := rfl
@[simp] theorem State.reportError_result (c : ErrorCause) : (s.reportError c).result = s.result := rfl
@[simp] theorem State.reportError_events (c : ErrorCause) : (s.reportError c).events = s.events ++ [.decodeError c] := rfl
@[simp] theorem State.reportError_trace (c : ErrorCause) : (s.reportError c).trace = s.trace := rfl

@[simp] theorem State.present_sr (w : CommandWord) : (s.present w).sr = s.sr := rfl
@[simp] theorem State.present_cnt (w : CommandWord) : (s.present w).cnt = s.cnt := rfl
@[simp] theorem State.present_lu (w : CommandWord) : (s.present w).lu = s.lu := rfl
@[simp] theorem State.present_luValid (w : CommandWord) : (s.present w).luValid = s.luValid := rfl
@[simp] theorem State.present_le (w : CommandWord) : (s.present w).le = s.le := rfl
@[simp] theorem State.present_leValid (w : CommandWord) : (s.present w).leValid = s.leValid := rfl
@[simp] theorem State.present_config (w : CommandWord) : (s.present w).config = s.config := rfl
@[simp] theorem State.present_result (w : CommandWord) : (s.present w).result = s.result := rfl
@[simp] theorem State.present_events (w : CommandWord) : (s.present w).events = s.events := rfl
@[simp] theorem State.present_trace (w : CommandWord) : (s.present w).trace = w :: s.trace := rfl

@[simp] theorem State.emitIncomplete_sr (p : Option Snapshot) : (s.emitIncomplete p).sr = s.sr := by
  cases p <;> rfl
@[simp] theorem State.emitIncomplete_cnt (p : Option Snapshot) : (s.emitIncomplete p).cnt = s.cnt := by
  cases p <;> rfl
@[simp] theorem State.emitIncomplete_lu (p : Option Snapshot) : (s.emitIncomplete p).lu = s.lu := by
  cases p <;> rfl
@[simp] theorem State.emitIncomplete_luValid (p : Option Snapshot) : (s.emitIncomplete p).luValid = s.luValid := by
  cases p <;> rfl
@[simp] theorem State.emitIncomplete_le (p : Option Snapshot) : (s.emitIncomplete p).le = s.le := by
  cases p <;> rfl
@[simp] theorem State.emitIncomplete_leValid (p : Option Snapshot) : (s.emitIncomplete p).leValid = s.leValid := by
  cases p <;> rfl
@[simp] theorem State.emitIncomplete_config (p : Option Snapshot) : (s.emitIncomplete p).config = s.config := by
  cases p <;> rfl
@[simp] theorem State.emitIncomplete_result (p : Option Snapshot) : (s.emitIncomplete p).result = s.result := by
  cases p <;> rfl
@[simp] theorem State.emitIncomplete_trace (p : Option Snapshot) : (s.emitIncomplete p).trace = s.trace := by
  cases p <;> rfl
@[simp] theorem State.emitIncomplete_none : s.emitIncomplete none = s := rfl
@[simp] theorem State.emitIncomplete_some (p : Snapshot) :
    s.emitIncomplete (some p) = s.emit (.incomplete p.v p.n) := rfl

@[simp] theorem State.snapshot_v : s.snapshot.v = s.sr := rfl
@[simp] theorem State.snapshot_n : s.snapshot.n = s.cnt.toNat := rfl

@[simp] theorem State.decodeAndEmit_sr (p : Snapshot) : (s.decodeAndEmit p).sr = s.sr := by
  unfold State.decodeAndEmit State.emitDecoded; split <;> rfl
@[simp] theorem State.decodeAndEmit_cnt (p : Snapshot) : (s.decodeAndEmit p).cnt = s.cnt := by
  unfold State.decodeAndEmit State.emitDecoded; split <;> rfl
@[simp] theorem State.decodeAndEmit_lu (p : Snapshot) : (s.decodeAndEmit p).lu = s.lu := by
  unfold State.decodeAndEmit State.emitDecoded; split <;> rfl
@[simp] theorem State.decodeAndEmit_luValid (p : Snapshot) : (s.decodeAndEmit p).luValid = s.luValid := by
  unfold State.decodeAndEmit State.emitDecoded; split <;> rfl
@[simp] theorem State.decodeAndEmit_le (p : Snapshot) : (s.decodeAndEmit p).le = s.le := by
  unfold State.decodeAndEmit State.emitDecoded; split <;> rfl
@[simp] theorem State.decodeAndEmit_leValid (p : Snapshot) : (s.decodeAndEmit p).leValid = s.leValid := by
  unfold State.decodeAndEmit State.emitDecoded; split <;> rfl
@[simp] theorem State.decodeAndEmit_config (p : Snapshot) : (s.decodeAndEmit p).config = s.config := by
  unfold State.decodeAndEmit State.emitDecoded; split <;> rfl
@[simp] theorem State.decodeAndEmit_result (p : Snapshot) : (s.decodeAndEmit p).result = s.result := by
  unfold State.decodeAndEmit State.emitDecoded; split <;> rfl
@[simp] theorem State.decodeAndEmit_trace (p : Snapshot) : (s.decodeAndEmit p).trace = s.trace := by
  unfold State.decodeAndEmit State.emitDecoded; split <;> rfl

end Sys2Proof.Machine
end

