-- ==== Sys2Proof/Laws/Ops.lean ====
section
/-! SUPPORT. What each shared operation can do, said once: the append, the timeout check, the decoder, the fetch and the
step. Callers cite these instead of unfolding the operation. -/

namespace Sys2Proof.Machine

variable (s : State)

/-! ### The predicates, as propositions -/

theorem State.isEmpty_iff : s.isEmpty = true ↔ s.cnt = 0 := by simp [State.isEmpty]

theorem State.isFull_iff : s.isFull = true ↔ s.cnt = s.config.expectedWidth := by simp [State.isFull]

theorem State.isFull_eq_false_iff : s.isFull = false ↔ s.cnt ≠ s.config.expectedWidth := by simp [State.isFull]

theorem State.timedOut_iff (now : Timestamp) :
    s.timedOut now = true ↔ s.cnt ≠ 0 ∧ s.lu.toNat + s.config.bitTimeout.toNat < now.toNat := by
  simp [State.timedOut, State.isEmpty]

theorem State.debounceAccepts_iff (ts : Timestamp) :
    s.debounceAccepts ts = true ↔
      s.leValid = false ∨ s.le.toNat + s.config.debounceInterval.toNat ≤ ts.toNat := by
  simp [State.debounceAccepts]

theorem configLegal_iff (c : Configuration) :
    configLegal c = true ↔ 1 ≤ c.expectedWidth.toNat ∧ c.expectedWidth.toNat ≤ 34 :=
  decide_eq_true_iff

/-! ### The predicates look at the registers only -/

@[simp] theorem State.beginCommand_isFull : s.beginCommand.isFull = s.isFull := rfl

@[simp] theorem State.beginCommand_timedOut (now : Timestamp) :
    s.beginCommand.timedOut now = s.timedOut now := rfl

@[simp] theorem State.beginCommand_debounceAccepts (ts : Timestamp) :
    s.beginCommand.debounceAccepts ts = s.debounceAccepts ts := rfl

@[simp] theorem State.beginCommand_snapshot : s.beginCommand.snapshot = s.snapshot := rfl

/-! ### The append -/

theorem appendBit_of_full (b : Bit) (t : Timestamp) (h : s.cnt = s.config.expectedWidth) :
    appendBit b t s =
      (s.startBuffer b t, ⟨(s.startBuffer b t).frameReadySignal, some s.snapshot⟩) := by
  simp [appendBit, (State.isFull_iff s).2 h]

theorem appendBit_of_not_full (b : Bit) (t : Timestamp) (h : s.cnt ≠ s.config.expectedWidth) :
    appendBit b t s = (s.shiftIn b t, ⟨(s.shiftIn b t).frameReadySignal, none⟩) := by
  simp [appendBit, (State.isFull_eq_false_iff s).2 h]

/-- Everything an append can do. -/
theorem appendBit_cases (b : Bit) (t : Timestamp) :
    (s.cnt = s.config.expectedWidth ∧ appendBit b t s =
      (s.startBuffer b t, ⟨(s.startBuffer b t).frameReadySignal, some s.snapshot⟩)) ∨
    (s.cnt ≠ s.config.expectedWidth ∧ appendBit b t s =
      (s.shiftIn b t, ⟨(s.shiftIn b t).frameReadySignal, none⟩)) := by
  by_cases h : s.cnt = s.config.expectedWidth
  · exact .inl ⟨h, appendBit_of_full s b t h⟩
  · exact .inr ⟨h, appendBit_of_not_full s b t h⟩

theorem State.frameReadySignal_eq :
    s.frameReadySignal = if s.cnt = s.config.expectedWidth then some ⟨s.sr, s.cnt.toNat⟩ else none := by
  simp [State.frameReadySignal, State.isFull, State.snapshot]

/-- The shift is doubling and adding the bit, `mod 2^34`. -/
theorem shift_eq_double_add (v : FrameBits) (b : Bit) :
    (v <<< 1) ||| (BitVec.ofBool b.code).setWidth 34 = BitVec.ofNat 34 (2 * v.toNat + b.code.toNat) := by
  have h : (v <<< 1) ||| (BitVec.ofBool b.code).setWidth 34 =
      (v <<< 1) + (BitVec.ofBool b.code).setWidth 34 := by
    rw [BitVec.add_eq_or_of_and_eq_zero]
    ext i hi
    cases b <;> cases i <;> simp [Bit.code]
  rw [h]
  apply BitVec.eq_of_toNat_eq
  cases b <;> simp [Bit.code, Nat.shiftLeft_eq, Nat.mul_comm]

/-- A bit as a 34-bit value. -/
theorem bit_eq_ofNat (b : Bit) :
    (BitVec.ofBool b.code).setWidth 34 = BitVec.ofNat 34 b.code.toNat := by
  cases b <;> rfl

/-! ### The timeout check -/

theorem checkTimeout_of_full (now : Timestamp) (h : s.timedOut now = true)
    (hw : s.cnt = s.config.expectedWidth) :
    checkTimeout now s = (s.clearBuffer, ⟨some s.snapshot, none⟩) := by
  simp [checkTimeout, h, State.isFull, hw]

theorem checkTimeout_of_partial (now : Timestamp) (h : s.timedOut now = true)
    (hw : s.cnt ≠ s.config.expectedWidth) :
    checkTimeout now s = (s.clearBuffer, ⟨none, some s.snapshot⟩) := by
  simp [checkTimeout, h, State.isFull, hw]

theorem checkTimeout_of_not_timedOut (now : Timestamp) (h : s.timedOut now = false) :
    checkTimeout now s = (s, .absent) := by
  simp [checkTimeout, h]

/-! ### Decode and its event -/

/-- Emitting the outcome of a Decode is emitting one event. -/
theorem State.decodeAndEmit_eq (p : Snapshot) :
    s.decodeAndEmit p = s.emit (decodedWith s.config p.v p.n) := by
  unfold State.decodeAndEmit State.emitDecoded decodedWith outcomeEvent
  cases decodeFrame p.v p.n s.config.expectedWidth.toNat s.config.degradedMode <;> rfl

/-- Everything Decode can answer. -/
theorem decodeFrame_cases (v : FrameBits) (n w : Nat) (degraded : Bool) :
    (n ≠ w ∧ decodeFrame v n w degraded = .error (.formatMismatch n w)) ∨
    (n = w ∧ w ≠ 26 ∧ w ≠ 34 ∧ degraded = false ∧
      decodeFrame v n w degraded = .error (.unsupportedFormat w)) ∨
    (n = w ∧ (w = 26 ∨ w = 34 ∨ degraded = true) ∧ decodeFrame v n w degraded =
      .ok ⟨binaryString v n, hexString v w, frameField v w .facilityCode, frameField v w .cardNumber, n⟩) := by
  by_cases hn : n = w
  · right
    subst hn
    by_cases hs : n = 26 ∨ n = 34
    · exact .inr ⟨rfl, by tauto, by simp [decodeFrame, formatSupported, hs]⟩
    · cases degraded
      · exact .inl ⟨rfl, by tauto, by tauto, rfl, by simp [decodeFrame, formatSupported, hs]⟩
      · exact .inr ⟨rfl, by tauto, by simp [decodeFrame]⟩
  · exact .inl ⟨hn, by simp [decodeFrame, hn]⟩

@[simp] theorem binaryString_length (v : FrameBits) (n : Nat) : (binaryString v n).length = n := by
  simp [binaryString, bitsOf]

@[simp] theorem hexString_length (v : FrameBits) (w : Nat) : (hexString v w).length = (w + 3) / 4 := by
  simp [hexString, hexDigits, hexDigitCount]

@[simp] theorem bitsOf_length (v : FrameBits) (n : Nat) : (bitsOf v n).length = n := by simp [bitsOf]

/-! ### What follows the append inside EDGE and the check inside TICK -/

theorem State.frameReadySignal_of_full (h : s.cnt = s.config.expectedWidth) :
    s.frameReadySignal = some ⟨s.sr, s.cnt.toNat⟩ := by
  rw [State.frameReadySignal_eq, if_pos h]

theorem State.frameReadySignal_of_not_full (h : s.cnt ≠ s.config.expectedWidth) :
    s.frameReadySignal = none := by
  rw [State.frameReadySignal_eq, if_neg h]

theorem finishEdge_no_frame (p : Option Snapshot) : finishEdge (s, ⟨none, p⟩) = s.emitIncomplete p := rfl

theorem finishEdge_frame (q : Snapshot) (p : Option Snapshot) :
    finishEdge (s, ⟨some q, p⟩) =
      ((s.emitIncomplete p).emit (decodedWith s.config q.v q.n)).clearBuffer := by
  simp [finishEdge, State.service, State.decodeAndEmit_eq]

theorem finishTick_no_frame (p : Option Snapshot) : finishTick (s, ⟨none, p⟩) = s.emitIncomplete p := rfl

theorem finishTick_frame (q : Snapshot) (p : Option Snapshot) :
    finishTick (s, ⟨some q, p⟩) = (s.emitIncomplete p).emit (decodedWith s.config q.v q.n) := by
  simp [finishTick, State.service, State.decodeAndEmit_eq]

/-! ### The fetch and the step -/

/-- Everything a step can do. -/
theorem step_cases :
    (configLegal s.config = false ∧ step s = .refused (.illegalConfiguration s.config.expectedWidth)) ∨
    (configLegal s.config = true ∧ s.trace = [] ∧ step s = .next s.beginCommand) ∨
    (∃ w rest, configLegal s.config = true ∧ s.trace = w :: rest ∧
      ((∃ i, decodeWord w = .ok i ∧ step s = exec i { s with trace := rest }) ∨
        ∃ op, decodeWord w = .error (.reservedCommand op) ∧ step s = .refused (.reservedCommand op))) := by
  by_cases hc : configLegal s.config = true
  · cases ht : s.trace with
    | nil => exact .inr (.inl ⟨hc, rfl, by simp [step, fetch, hc, ht]⟩)
    | cons w rest =>
      refine .inr (.inr ⟨w, rest, hc, rfl, ?_⟩)
      cases hd : decodeWord w with
      | ok i => exact .inl ⟨i, rfl, by simp [step, fetch, hc, ht, hd]⟩
      | error e =>
        obtain ⟨op⟩ := e
        exact .inr ⟨op, rfl, by simp [step, fetch, hc, ht, hd, refusalOf]⟩
  · rw [Bool.not_eq_true] at hc
    exact .inl ⟨hc, by simp [step, fetch, hc]⟩

end Sys2Proof.Machine
end

