-- ==== Sys2Proof/Laws/PerInstr.lean ====
section
/-! SUPPORT. One lemma per command: the encoding writes the command's number into `op` and 0 into `rsv` (R40, R41). -/

namespace Sys2Proof.Laws.EncodedFields

/-- The `op` and `rsv` fields of a command's word. -/
def Statement (i : Instr) : Prop := cmdOp (encode i) = i.opcode ∧ cmdRsv (encode i) = 0

theorem append (bit : Bit) (now : Timestamp) : Statement (.append bit now) := by
  simp [Statement, encode]

theorem checkTimeout (now : Timestamp) : Statement (.checkTimeout now) := by
  simp [Statement, encode]

theorem reset : Statement .reset := by
  simp [Statement, encode]

theorem decode : Statement .decode := by
  simp [Statement, encode]

theorem edge (line : Line) (level : Level) (ts : Timestamp) : Statement (.edge line level ts) := by
  simp [Statement, encode]

theorem tick (now : Timestamp) : Statement (.tick now) := by
  simp [Statement, encode]

end Sys2Proof.Laws.EncodedFields
end

