-- ==== Sys2Proof/Laws/Run.lean ====
section
/-! SUPPORT. Unfolding one step of a run of the core, and of the events along it. -/

namespace Sys2Proof.Machine

/-- A run begins with its first step (of any machine). -/
theorem run_succ_of_next (M : Host.Core) {s t : M.State} (k : Nat) (h : M.step s = .next t) :
    Host.Core.run M (k + 1) s = Host.Core.run M k t := by
  rw [Host.Core.run, h]

theorem run_succ {s t : State} (k : Nat) (h : step s = .next t) :
    Host.Core.run Sys2Proof.core (k + 1) s = Host.Core.run Sys2Proof.core k t :=
  run_succ_of_next Sys2Proof.core k h

theorem run_succ_of_refused (M : Host.Core) {s : M.State} {r : M.Refusal} (k : Nat) (h : M.step s = .refused r) :
    Host.Core.run M (k + 1) s = .refused r := by
  rw [Host.Core.run, h]

theorem run_refused {s : State} {r : Refusal} (k : Nat) (h : step s = .refused r) :
    Host.Core.run Sys2Proof.core (k + 1) s = .refused r :=
  run_succ_of_refused Sys2Proof.core k h

theorem eventsAlong_succ {s t : State} (k : Nat) (h : step s = .next t) :
    eventsAlong (k + 1) s = t.events ++ eventsAlong k t := by
  simp [eventsAlong, h]

theorem acceptedBits_append (a b : List Event) : acceptedBits (a ++ b) = acceptedBits a + acceptedBits b := by
  simp [acceptedBits]

theorem reportedBits_append (a b : List Event) : reportedBits (a ++ b) = reportedBits a + reportedBits b := by
  simp [reportedBits]

end Sys2Proof.Machine
end

