-- ==== Sys2Proof/Tests/Slice0.lean ====
section
/-! SUPPORT. Tests. Expected results are those of spec/95_test_vectors.md (named V-…) or calculated by hand from a rule.
A `witness_<Name>` shows that the hypotheses of `Obligations.<Name>` can be met. -/

namespace Sys2Proof.Tests

open Sys2Proof.Machine

/-- A state written as 95_test_vectors.md writes it, after the configuration. -/
def machine (w : BitCount) (timeout debounce : Timestamp) (degraded : Bool)
    (sr : FrameBits) (cnt : BitCount) (lu : Timestamp) (luValid : Bool) (le : Timestamp) (leValid : Bool) : State :=
  { State.powerOn ⟨w, timeout, debounce, degraded⟩ with
    sr := sr, cnt := cnt, lu := lu, luValid := luValid, le := le, leValid := leValid }

/-- The state a command leaves, with its outputs. -/
def after (o : Host.Outcome State Fault Refusal) : Option State :=
  match o with
  | .next t => some t
  | .fault _ => none
  | .refused _ => none

/-- The refusal a step ends in. -/
def refusal (o : Host.Outcome State Fault Refusal) : Option Refusal :=
  match o with
  | .next _ => none
  | .fault _ => none
  | .refused r => some r

/-- The six registers outside the configuration. -/
def registers (s : State) : Nat × Nat × Nat × Bool × Nat × Bool :=
  (s.sr.toNat, s.cnt.toNat, s.lu.toNat, s.luValid, s.le.toNat, s.leValid)

/-- What a command leaves: the registers, the result signals, the events. -/
structure View where
  registers : Nat × Nat × Nat × Bool × Nat × Bool
  result : Result
  events : List Event
  deriving DecidableEq, Repr

def view (o : Host.Outcome State Fault Refusal) : Option View :=
  (after o).map fun t => ⟨registers t, t.result, t.events⟩

def full26 : State := machine 26 500 0 true 0x1010005 26 25 true 0 false
def lacksOne26 : State := machine 26 500 0 true 0x808002 25 148 true 148 true
def partial26 : State := machine 26 500 0 true 0x2CE 10 18 true 18 true
def window26 : State := machine 26 500 50 true 0 1 100 true 100 true
def full1 : State := machine 1 500 0 true 1 1 1 true 0 false
def lacksOne8 : State := machine 8 500 0 false 0x52 7 6 true 6 true
def full8 : State := machine 8 500 0 false 0xA5 8 6 true 6 true
def noTimeout26 : State := machine 26 0 0 true 1 1 5 true 0 false

/-! ### Well-formedness: each check refuses an ill-formed term (R6, R41, R48, R51, U11) -/

theorem test_wf_refuses_reserved_numbers :
    CommandWord.wf 0x600000000000000000 = false ∧ CommandWord.wf 0xF00000000000000000 = false ∧
      CommandWord.wf 0x500000000000000258 = true ∧ CommandWord.wf 0 = true := by decide

theorem test_canonical_refuses_unused_fields :
    CommandWord.canonical 0x600000000000000000 = false ∧ CommandWord.canonical 0x4A0000000000000005 = false ∧
      CommandWord.canonical 0x010000000000000000 = false ∧ CommandWord.canonical 0x120000000000000000 = false ∧
      CommandWord.canonical 0x510000000000000000 = false ∧ CommandWord.canonical 0x2F00000000DEADBEEF = false ∧
      CommandWord.canonical 0x300000000000000001 = false ∧ CommandWord.canonical 0x43FFFFFFFFFFFFFFFF = true := by
  decide

theorem test_asm_wf_refuses_times_that_do_not_fit :
    AsmLine.wf (.append .one (2 ^ 64)) = false ∧ AsmLine.wf (.checkTimeout (2 ^ 64)) = false ∧
      AsmLine.wf (.edge .data0 .low (2 ^ 64)) = false ∧ AsmLine.wf (.tick (2 ^ 64)) = false ∧
      AsmLine.wf (.pulse0 (2 ^ 64)) = false ∧ AsmLine.wf (.pulse1 (2 ^ 64)) = false ∧
      AsmLine.wf (.bits [.one, .zero] (2 ^ 64 - 1) 1) = false ∧ AsmLine.wf (.bits [.one] (2 ^ 64 - 1) 1) = true := by
  decide

theorem test_config_refuses_widths :
    configLegal ⟨0, 0, 0, true⟩ = false ∧ configLegal ⟨35, 0, 0, true⟩ = false ∧
      configLegal ⟨1, 0, 0, true⟩ = true ∧ configLegal ⟨34, 0, 0, false⟩ = true := by decide

/-! ### Decoding (V-E1 to V-E13, and words of the programs P1 to P4) -/

theorem test_decode_append :
    decodeTableWord 72 0x020000000000000005 = some (.append .one 5) ∧
      decodeTableWord 72 0 = some (.append .zero 0) := by decide

theorem test_decode_checkTimeout :
    decodeTableWord 72 0x1000000000000001F4 = some (.checkTimeout 500) := by decide

theorem test_decode_reset :
    decodeTableWord 72 0x200000000000000000 = some .reset ∧
      decodeTableWord 72 0x2F00000000DEADBEEF = some .reset := by decide

theorem test_decode_decode : decodeTableWord 72 0x300000000000000000 = some .decode := by decide

theorem test_decode_edge :
    decodeTableWord 72 0x420000000000000005 = some (.edge .data1 .low 5) ∧
      decodeTableWord 72 0x410000000000000007 = some (.edge .data0 .high 7) ∧
      decodeTableWord 72 0x4A0000000000000005 = some (.edge .data1 .low 5) ∧
      decodeTableWord 72 0x42FFFFFFFFFFFFFFFF = some (.edge .data1 .low 18446744073709551615) := by decide

theorem test_decode_tick : decodeTableWord 72 0x500000000000000258 = some (.tick 600) := by decide

theorem test_decode_refuses_reserved :
    decodeTableWord 72 0x600000000000000000 = none ∧ decodeTableWord 72 0xF00000000000000000 = none := by decide

theorem test_encode_writes_the_spec_words :
    encode (.append .one 5) = 0x020000000000000005 ∧ encode (.checkTimeout 500) = 0x1000000000000001F4 ∧
      encode .reset = 0x200000000000000000 ∧ encode .decode = 0x300000000000000000 ∧
      encode (.edge .data1 .low 5) = 0x420000000000000005 ∧ encode (.tick 600) = 0x500000000000000258 := by decide

/-- The notation of R51, from its text to its words (rows of P1, P3 and P4; the three words of the BITS line by hand from R41). -/
theorem test_assembler :
    parseLine "APPEND 1 @30".toList = some (.append .one 30) ∧
      parseLine "CHECK_TIMEOUT @610".toList = some (.checkTimeout 610) ∧
      parseLine "RESET".toList = some .reset ∧ parseLine "DECODE".toList = some .decode ∧
      parseLine "EDGE D1 HIGH @17".toList = some (.edge .data1 .high 17) ∧
      parseLine "TICK @1600".toList = some (.tick 1600) ∧
      parseLine "PULSE1 @5".toList = some (.pulse1 5) ∧
      parseLine "BITS \"101\" @5 +2".toList = some (.bits [.one, .zero, .one] 5 2) ∧
      parseLine "EDGE D2 LOW @1".toList = none ∧
      AsmLine.words (.bits [.one, .zero, .one] 5 2) =
        some [0x420000000000000005, 0x400000000000000007, 0x420000000000000009] := by decide

/-- The word the host places is the one the next step runs, right after reset. -/
theorem test_withFetchWord_runs_first :
    (after (step (State.reset.withFetchWord 72 0x420000000000000005))).map registers =
      some (1, 1, 5, true, 5, true) ∧
    refusal (step (State.reset.withFetchWord 72 0x600000000000000000)) = some (.reservedCommand 6) := by decide

/-! ### One command (at most two theorems each) -/

/-- V-A2, V-A5. -/
theorem test_append_shifts_and_completes :
    view (exec (.append .zero 12) (machine 26 500 0 true 1 1 10 true 0 false)) =
      some ⟨(2, 2, 12, true, 0, false), ⟨none, none⟩, []⟩ ∧
    view (exec (.append .one 150) lacksOne26) =
      some ⟨(0x1010005, 26, 150, true, 148, true), ⟨some ⟨0x1010005, 26⟩, none⟩, []⟩ := by decide

/-- V-A6, and the second command of V-A16. -/
theorem test_append_overruns :
    view (exec (.append .one 200) full26) =
      some ⟨(1, 1, 200, true, 0, false), ⟨none, some ⟨0x1010005, 26⟩⟩, [.incomplete 0x1010005 26]⟩ ∧
    view (exec (.append .zero 2) full1) =
      some ⟨(0, 1, 2, true, 0, false), ⟨some ⟨0, 1⟩, some ⟨1, 1⟩⟩, [.incomplete 1 1]⟩ := by decide

/-- V-A7, V-A8. -/
theorem test_checkTimeout_is_strict :
    view (exec (.checkTimeout 609) (machine 26 500 0 true 0x155 10 109 true 0 false)) =
      some ⟨(0x155, 10, 109, true, 0, false), ⟨none, none⟩, []⟩ ∧
    view (exec (.checkTimeout 610) (machine 26 500 0 true 0x155 10 109 true 0 false)) =
      some ⟨(0, 0, 0, false, 0, false), ⟨none, some ⟨0x155, 10⟩⟩, [.incomplete 0x155 10]⟩ := by decide

/-- V-A11, second command. -/
theorem test_checkTimeout_full :
    view (exec (.checkTimeout 526) full26) =
      some ⟨(0, 0, 0, false, 0, false), ⟨some ⟨0x1010005, 26⟩, none⟩, []⟩ := by decide

/-- V-A13, and the debounce memory is kept (R67). -/
theorem test_reset_clears_the_buffer_only :
    view (exec .reset partial26) =
      some ⟨(0, 0, 0, false, 18, true), ⟨none, none⟩, []⟩ := by decide

/-- V-D1 on the buffer of V-A11. -/
theorem test_decode_frame26 :
    view (exec .decode full26) =
      some ⟨(0x1010005, 26, 25, true, 0, false), ⟨none, none⟩,
        [.frame Config.readerType ⟨"01000000010000000000000101".toList, "1010005".toList, some 128, some 32770, 26⟩]⟩ :=
  rfl

/-- V-D18, V-D24, V-D23, V-D26. -/
theorem test_decode_function :
    decodeFrame 0x048D159E2 34 34 true =
      .ok ⟨"0001001000110100010101100111100010".toList, "048D159E2".toList, some 36, some 6860017, 34⟩ ∧
    decodeFrame 0xA5 8 8 true = .ok ⟨"10100101".toList, "A5".toList, none, none, 8⟩ ∧
    decodeFrame 0x1010005 26 34 true = .error (.formatMismatch 26 34) ∧
    decodeFrame 0x05 7 8 false = .error (.formatMismatch 7 8) :=
  ⟨rfl, rfl, rfl, rfl⟩

/-- V-F3, V-F4. -/
theorem test_edge_debounce_boundary :
    view (exec (.edge .data1 .low 149) window26) =
      some ⟨(0, 1, 100, true, 100, true), ⟨none, none⟩, []⟩ ∧
    view (exec (.edge .data1 .low 150) window26) =
      some ⟨(1, 2, 150, true, 150, true), ⟨none, none⟩, [.bit .data1 .one]⟩ := by decide

/-- V-T7: an unsupported width, in the order of events, and the buffer cleared all the same. -/
theorem test_edge_completes_with_an_error :
    view (exec (.edge .data1 .low 7) lacksOne8) =
      some ⟨(0, 0, 0, false, 7, true), ⟨none, none⟩, [.bit .data1 .one, .decodeError (.unsupportedFormat 8)]⟩ := by decide

/-- V-T2, V-T3. -/
theorem test_tick_is_strict :
    view (exec (.tick 518) partial26) =
      some ⟨(0x2CE, 10, 18, true, 18, true), ⟨none, none⟩, []⟩ ∧
    view (exec (.tick 519) partial26) =
      some ⟨(0, 0, 0, false, 18, true), ⟨none, none⟩, [.incomplete 0x2CE 10]⟩ := by decide

/-- V-T4. -/
theorem test_tick_decodes_a_full_buffer :
    view (exec (.tick 526) full26) =
      some ⟨(0, 0, 0, false, 0, false), ⟨none, none⟩,
        [.frame Config.readerType ⟨"01000000010000000000000101".toList, "1010005".toList, some 128, some 32770, 26⟩]⟩ :=
  rfl

/-! ### Witnesses: the hypotheses of each statement can be met, clause by clause, at the ends of their ranges -/

/-- A state that presents the given commands next. -/
def presents (s : State) (commands : List Instr) : State := { s with trace := commands.map encode }

theorem witness_CanonicalWordsAreTheEncodings : CommandWord.canonical 0x43FFFFFFFFFFFFFFFF = true := by decide

theorem witness_DecodingReadsOpAndUsedFieldsOnly :
    decodeTableWord 72 0x020000000000000005 = decodeTableWord 72 0x0F0000000000000005 ∧
      decodeTableWord 72 0x1000000000000001F4 = decodeTableWord 72 0x1F00000000000001F4 ∧
      decodeTableWord 72 0x420000000000000005 = decodeTableWord 72 0x4A0000000000000005 ∧
      decodeTableWord 72 0x420000000000000005 ≠ decodeTableWord 72 0x430000000000000005 ∧
      decodeTableWord 72 0x500000000000000258 = decodeTableWord 72 0x570000000000000258 := by decide

theorem witness_MatchUnderMaskSelectsTheCommand :
    (0 < 6 ∧ (0x0F0000000000000005#72 &&& (0xF#72 <<< 68)) = BitVec.ofNat 72 0 <<< 68) ∧
      (5 < 6 ∧ (0x5F0000000000000005#72 &&& (0xF#72 <<< 68)) = BitVec.ofNat 72 5 <<< 68) := by decide

theorem witness_ReservedCommandNumbersAreRefused :
    configLegal State.reset.config = true ∧
      6 ≤ (cmdOp 0x600000000000000000).toNat ∧ 6 ≤ (cmdOp 0xF00000000000000000).toNat ∧
      (State.reset.withFetchWord 72 0x600000000000000000).trace = [0x600000000000000000] := by decide

theorem witness_BitsLineExpandsToTimedPulses :
    [Bit.one, Bit.zero][0]? = some Bit.one ∧ [Bit.one, Bit.zero][1]? = some Bit.zero := by decide

theorem witness_StepRunsTheDecodedCommand :
    configLegal (presents full26 [.tick 526]).config = true ∧
      (presents full26 [.tick 526]).trace = [0x50000000000000020E] ∧
      decodeTableWord 72 0x50000000000000020E = some (.tick 526) := by decide

theorem witness_StepWithoutACommandChangesNothing :
    configLegal full26.config = true ∧ full26.trace = [] := by decide

theorem witness_IllegalWidthIsRefused :
    (machine 0 500 0 true 0 0 0 false 0 false).config.expectedWidth.toNat = 0 ∧
      34 < (machine 35 500 0 true 0 0 0 false 0 false).config.expectedWidth.toNat := by decide

theorem witness_StepCompletesExactlyOnCommands :
    (after (step (presents full1 [.decode]))).isSome = true ∧ (after (step full26)).isSome = true ∧
      refusal (step (machine 35 500 0 true 0 0 0 false 0 false)) = some (.illegalConfiguration 35) := by decide

theorem witness_ConfigurationNeverChanges :
    (after (step (presents partial26 [.tick 519]))).isSome = true := by decide

theorem witness_AppendFollowsItsRule :
    full26.cnt = full26.config.expectedWidth ∧
      (full1.cnt = full1.config.expectedWidth ∧ full1.config.expectedWidth = 1) ∧
      (lacksOne26.cnt ≠ lacksOne26.config.expectedWidth ∧ lacksOne26.cnt + 1 = lacksOne26.config.expectedWidth) ∧
      partial26.cnt ≠ partial26.config.expectedWidth := by decide

theorem witness_AppendAddsTheBitAtTheEndOfTheSequence :
    (lacksOne26.Inv ∧ lacksOne26.cnt ≠ lacksOne26.config.expectedWidth) ∧
      (State.reset.Inv ∧ State.reset.cnt ≠ State.reset.config.expectedWidth) := by decide

theorem witness_OverrunReportsTheStaleFrameAndRestarts :
    (full26.Inv ∧ full26.cnt = full26.config.expectedWidth ∧ full26.config.expectedWidth ≠ 1) ∧
      (full1.Inv ∧ full1.cnt = full1.config.expectedWidth ∧ full1.config.expectedWidth = 1) ∧
      (partial26.Inv ∧ partial26.cnt ≠ partial26.config.expectedWidth) := by decide

/-- The seven clauses, in their order: (a); (b); equality of the time; (e); (c) by the result; (d); a full buffer; a
partial one. -/
theorem witness_TimeoutCornerCases :
    (State.reset.Inv ∧ State.reset.cnt = 0) ∧
      (noTimeout26.Inv ∧ noTimeout26.cnt ≠ 0 ∧ noTimeout26.config.bitTimeout = 0 ∧
        noTimeout26.lu.toNat < (6 : Timestamp).toNat) ∧
      (partial26.Inv ∧ (518 : Timestamp).toNat ≤ partial26.lu.toNat + partial26.config.bitTimeout.toNat) ∧
      (17 : Timestamp).toNat < partial26.lu.toNat ∧
      ((after (exec (.checkTimeout 519) partial26)).bind fun t => t.result.incomplete) = some ⟨0x2CE, 10⟩ ∧
      (lacksOne26.Inv ∧ lacksOne26.cnt.toNat + 1 = lacksOne26.config.expectedWidth.toNat ∧ lacksOne26.cnt ≠ 0 ∧
        lacksOne26.lu.toNat + lacksOne26.config.bitTimeout.toNat < (649 : Timestamp).toNat) ∧
      (full26.Inv ∧ full26.cnt = full26.config.expectedWidth ∧
        full26.lu.toNat + full26.config.bitTimeout.toNat < (526 : Timestamp).toNat) ∧
      (1 ≤ partial26.cnt.toNat ∧ partial26.cnt.toNat < partial26.config.expectedWidth.toNat ∧
        partial26.lu.toNat + partial26.config.bitTimeout.toNat < (519 : Timestamp).toNat) := by decide

theorem witness_ResetIsIdempotentAndTheEmptyBufferUnique : State.reset.Inv ∧ State.reset.cnt = 0 := by decide

/-- The results that the clauses speak of: a completing APPEND, a CHECK_TIMEOUT, and both signals with `W = 1`. -/
theorem witness_ResultSignalsOfAccumulatorCommands :
    (lacksOne26.Inv ∧ full26.Inv ∧ partial26.Inv ∧ full1.Inv) ∧
      ((after (exec (.append .one 150) lacksOne26)).bind fun t => t.result.frameReady) = some ⟨0x1010005, 26⟩ ∧
      ((after (exec (.checkTimeout 526) full26)).bind fun t => t.result.frameReady) = some ⟨0x1010005, 26⟩ ∧
      ((after (exec (.checkTimeout 519) partial26)).bind fun t => t.result.incomplete) = some ⟨0x2CE, 10⟩ ∧
      ((after (exec (.append .zero 2) full1)).map fun t => t.result) = some ⟨some ⟨0, 1⟩, some ⟨1, 1⟩⟩ := by decide

theorem witness_WrongLengthIsAFormatMismatch :
    (25 ≠ 26 ∧ 27 ≠ 26) ∧ (34 ≤ 34 ∧ 34 < (List.replicate 35 Bit.one).length) ∧
      ((after (exec .decode State.reset)).map fun t => t.events) = some [.decodeError (.formatMismatch 0 26)] := by
  decide

theorem witness_BinaryStringShowsTheFrameInArrivalOrder :
    (34 ≤ 34 ∧ (0x3FFFFFFFF : FrameBits).toNat < 2 ^ 34 ∧ ∃ f, decodeFrame 0x3FFFFFFFF 34 34 false = .ok f) ∧
      (1 ≤ 34 ∧ (1 : FrameBits).toNat < 2 ^ 1 ∧ ∃ f, decodeFrame 1 1 1 true = .ok f) :=
  ⟨⟨by decide, by decide, _, rfl⟩, by decide, by decide, _, rfl⟩

theorem witness_HexStringIsPaddedAndMostSignificantFirst :
    (1 ≤ 26 ∧ 26 ≤ 34 ∧ (0x3FFFFFF : FrameBits).toNat < 2 ^ 26 ∧ ∃ f, decodeFrame 0x3FFFFFF 26 26 true = .ok f) ∧
      (1 ≤ 1 ∧ 1 ≤ 34 ∧ (1 : FrameBits).toNat < 2 ^ 1 ∧ ∃ f, decodeFrame 1 1 1 true = .ok f) :=
  ⟨⟨by decide, by decide, by decide, _, rfl⟩, by decide, by decide, by decide, _, rfl⟩

theorem witness_FieldIsTheValueOfItsSlice :
    (26 ≤ 34 ∧ (0x1010005 : FrameBits).toNat < 2 ^ 26 ∧ 9 + 16 ≤ 26) ∧
      (34 ≤ 34 ∧ (0x3FFFFFFFF : FrameBits).toNat < 2 ^ 34 ∧ 0 + 34 ≤ 34) := by decide

theorem witness_Format26ExtractsItsFields :
    (0x3010004 : FrameBits).extractLsb' 1 24 = (0x1010005 : FrameBits).extractLsb' 1 24 := by decide

theorem witness_Format34ExtractsItsFields :
    (0x248D159E3 : FrameBits).extractLsb' 1 32 = (0x048D159E2 : FrameBits).extractLsb' 1 32 := by decide

theorem witness_UnsupportedWidthFollowsDegradedMode : (33 ≠ 26 ∧ 33 ≠ 34 ∧ 34 ≠ 33) ∧ (1 ≠ 26 ∧ 1 ≠ 34 ∧ 0 ≠ 1) := by
  decide

theorem witness_HexAndBinaryStringsParseToTheSameValue :
    ((List.replicate 34 Bit.one).length = 34 ∧ 1 ≤ 34 ∧ 34 ≤ 34) ∧
      ([Bit.one].length = 1 ∧ 1 ≤ 1 ∧ 1 ≤ 34 ∧ (1 = 26 ∨ 1 = 34 ∨ true = true)) := by decide

theorem witness_FieldsReassembleTheFrame : (0x3FFFFFF : FrameBits).toNat < 2 ^ 26 := by decide

theorem witness_DecodeFollowsItsRule :
    (∃ f, decodeFrame full26.sr full26.cnt.toNat full26.config.expectedWidth.toNat full26.config.degradedMode = .ok f) ∧
      (∃ c, decodeFrame full8.sr full8.cnt.toNat full8.config.expectedWidth.toNat full8.config.degradedMode = .error c) ∧
      State.reset.cnt ≠ State.reset.config.expectedWidth ∧
      (full8.cnt = full8.config.expectedWidth ∧ full8.config.expectedWidth ≠ 26 ∧ full8.config.expectedWidth ≠ 34 ∧
        full8.config.degradedMode = false) :=
  ⟨⟨_, rfl⟩, ⟨_, rfl⟩, by decide⟩

theorem witness_ReadsAndIgnoredCommandsChangeNothing :
    (window26.leValid = true ∧ (149 : Timestamp).toNat < window26.le.toNat + window26.config.debounceInterval.toNat) ∧
      State.reset.cnt = 0 ∧
      (518 : Timestamp).toNat ≤ partial26.lu.toNat + partial26.config.bitTimeout.toNat := by decide

theorem witness_BitEventOncePerAcceptedEdge :
    (window26.debounceAccepts 150 = true ∧ window26.debounceAccepts 149 = false ∧
        State.reset.debounceAccepts 0 = true) ∧
      (lacksOne26.debounceAccepts 150 = true ∧ configLegal lacksOne26.config = true ∧
        ∃ t r f, exec (.edge .data1 .low 150) lacksOne26 = .next t ∧ Event.frame r f ∈ t.events) ∧
      ((after (exec (.edge .data1 .low 150) window26)).map fun t => t.cnt) = some 2 :=
  ⟨by decide, ⟨by decide, by decide, _, _, _, rfl, .tail _ (.head _)⟩, by decide⟩

theorem witness_EdgeAppendsItsBit :
    (State.reset.leValid = false ∧ State.reset.cnt ≠ State.reset.config.expectedWidth ∧
        State.reset.cnt + 1 ≠ State.reset.config.expectedWidth) ∧
      (window26.le.toNat + window26.config.debounceInterval.toNat ≤ (150 : Timestamp).toNat ∧
        window26.cnt ≠ window26.config.expectedWidth ∧ window26.cnt + 1 ≠ window26.config.expectedWidth) := by decide

theorem witness_CompletingEdgeDecodesAndClears :
    lacksOne26.le.toNat + lacksOne26.config.debounceInterval.toNat ≤ (148 : Timestamp).toNat ∧
      lacksOne26.cnt ≠ lacksOne26.config.expectedWidth ∧ lacksOne26.cnt + 1 = lacksOne26.config.expectedWidth := by
  decide

theorem witness_EdgeOnAFullBufferOverruns :
    (full26.leValid = false ∧ full26.cnt = full26.config.expectedWidth ∧ full26.config.expectedWidth ≠ 1) ∧
      (full1.leValid = false ∧ full1.cnt = full1.config.expectedWidth ∧ full1.config.expectedWidth = 1) := by decide

theorem witness_EdgeAndTickDoNotCommute :
    partial26.Inv ∧ partial26.cnt ≠ 0 ∧ partial26.cnt.toNat + 1 < partial26.config.expectedWidth.toNat ∧
      partial26.lu.toNat + partial26.config.bitTimeout.toNat < (519 : Timestamp).toNat ∧
      partial26.debounceAccepts 519 = true := by decide

/-- The commands after which the conclusion's premise holds: an EDGE that ends in an error, and a TICK on a full
buffer. -/
theorem witness_DecodeDecisionIsTakenOnce :
    (lacksOne8.Inv ∧ isTransaction (.edge .data1 .low 7) = true ∧
      ∃ t, exec (.edge .data1 .low 7) lacksOne8 = .next t ∧ ∃ c, Event.decodeError c ∈ t.events) ∧
    (full26.Inv ∧ isTransaction (.tick 526) = true ∧
      ∃ t, exec (.tick 526) full26 = .next t ∧ ∃ r f, Event.frame r f ∈ t.events) :=
  ⟨⟨by decide, rfl, _, rfl, _, .tail _ (.head _)⟩, by decide, rfl, _, rfl, _, _, .head _⟩

theorem witness_FormatMismatchComesOnlyFromDecode :
    State.reset.cnt ≠ State.reset.config.expectedWidth ∧
      ((after (exec .decode State.reset)).map fun t => t.events) = some [.decodeError (.formatMismatch 0 26)] := by decide

/-- DECODE, EDGE and TICK, each with the error. -/
theorem witness_UnsupportedFormatReplacesEveryFrame :
    (full8.config.expectedWidth ≠ 26 ∧ full8.config.expectedWidth ≠ 34 ∧ full8.config.degradedMode = false ∧
        full8.cnt = full8.config.expectedWidth ∧ full8.timedOut 507 = true) ∧
      (lacksOne8.cnt ≠ lacksOne8.config.expectedWidth ∧ lacksOne8.cnt + 1 = lacksOne8.config.expectedWidth ∧
        lacksOne8.debounceAccepts 7 = true) ∧
      ((machine 1 500 0 false 1 1 1 true 0 false).cnt = 1 ∧
        (machine 1 500 0 false 1 1 1 true 0 false).config.expectedWidth = 1 ∧
        (machine 1 500 0 false 1 1 1 true 0 false).debounceAccepts 2 = true) ∧
      ((after (exec .decode full8)).map fun t => t.events) = some [.decodeError (.unsupportedFormat 8)] ∧
      ((after (exec (.tick 507) full8)).map fun t => t.events) = some [.decodeError (.unsupportedFormat 8)] := by decide

/-- The two causes, by APPEND, EDGE, CHECK_TIMEOUT and TICK. -/
theorem witness_IncompleteFrameHasTwoCauses :
    (full26.Inv ∧ partial26.Inv) ∧
      ((after (exec (.append .one 200) full26)).map fun t => t.events) = some [.incomplete 0x1010005 26] ∧
      ((after (exec (.edge .data1 .low 200) full26)).map fun t => t.events) =
        some [.bit .data1 .one, .incomplete 0x1010005 26] ∧
      ((after (exec (.checkTimeout 519) partial26)).map fun t => t.events) = some [.incomplete 0x2CE 10] ∧
      ((after (exec (.tick 519) partial26)).map fun t => t.events) = some [.incomplete 0x2CE 10] := by decide

/-- One command for each of the four clauses about events; the last is an EDGE with `W = 1`. -/
theorem witness_AfterAnErrorTheHardwareIsReady :
    (partial26.Inv ∧ ∃ t, exec (.tick 519) partial26 = .next t ∧ Event.incomplete 0x2CE 10 ∈ t.events) ∧
      (State.reset.Inv ∧ ∃ t, exec .decode State.reset = .next t ∧
        Event.decodeError (.formatMismatch 0 26) ∈ t.events) ∧
      (lacksOne8.Inv ∧ isTransaction (.edge .data1 .low 7) = true ∧
        ∃ t, exec (.edge .data1 .low 7) lacksOne8 = .next t ∧ Event.decodeError (.unsupportedFormat 8) ∈ t.events) ∧
      (full1.Inv ∧ ∃ t r f, exec (.edge .data0 .low 2) full1 = .next t ∧
        Event.incomplete 1 1 ∈ t.events ∧ Event.frame r f ∈ t.events) :=
  ⟨⟨by decide, _, rfl, .head _⟩, ⟨by decide, _, rfl, .head _⟩, ⟨by decide, rfl, _, rfl, .tail _ (.head _)⟩,
    by decide, _, _, _, rfl, .tail _ (.head _), .tail _ (.tail _ (.head _))⟩

theorem witness_SourceInitFailureIsNeverRaised :
    (1 ≤ full1.config.expectedWidth.toNat ∧ full1.config.expectedWidth.toNat ≤ 34) ∧
      (1 ≤ (34 : BitCount).toNat ∧ (34 : BitCount).toNat ≤ 34) := by decide

theorem witness_OnlyEdgeTouchesTheDebounceMemory (line : Line) (level : Level) (ts : Timestamp) :
    Instr.tick 0 ≠ .edge line level ts := by simp

theorem witness_AppendBypassesTheGuard :
    window26.leValid = true ∧
      (149 : Timestamp).toNat < window26.le.toNat + window26.config.debounceInterval.toNat := by decide

theorem witness_FrameReadyAndTheCommandsAfterIt :
    (lacksOne26.Inv ∧
        ((after (exec (.append .one 150) lacksOne26)).bind fun t => t.result.frameReady) = some ⟨0x1010005, 26⟩) ∧
      (full26.Inv ∧
        ((after (exec (.checkTimeout 526) full26)).bind fun t => t.result.frameReady) = some ⟨0x1010005, 26⟩) := by
  decide

theorem witness_TickFlushesWithinOnePeriod :
    partial26.Inv ∧ partial26.cnt ≠ 0 ∧ (528 : Timestamp).toNat ≤ (518 : Timestamp).toNat + 10 ∧
      (518 : Timestamp).toNat ≤ partial26.lu.toNat + partial26.config.bitTimeout.toNat ∧
      partial26.lu.toNat + partial26.config.bitTimeout.toNat < (528 : Timestamp).toNat := by decide

theorem witness_PowerOnStateMeetsTheInvariant :
    configLegal ⟨1, 0, 0, false⟩ = true ∧ configLegal ⟨34, 0, 0, true⟩ = true := by decide

theorem witness_EveryStepKeepsTheInvariant :
    (presents lacksOne26 [.edge .data1 .low 150]).Inv ∧
      (after (step (presents lacksOne26 [.edge .data1 .low 150]))).isSome = true :=
  ⟨by decide, rfl⟩

theorem witness_TransactionsNeverLeaveAFullBuffer :
    (presents partial26 [.edge .data1 .low 20, .tick 600]).Inv ∧
      partial26.cnt.toNat < partial26.config.expectedWidth.toNat ∧
      transactionsOnly (presents partial26 [.edge .data1 .low 20, .tick 600]).trace = true := by decide

theorem witness_NumberOfAcceptedBitsIsConserved :
    (presents full26 [.edge .data1 .low 20, .tick 600]).Inv ∧
      transactionsOnly (presents full26 [.edge .data1 .low 20, .tick 600]).trace = true := by decide

theorem witness_MonotonicTimeStaysAheadOfTheRegisters :
    configLegal partial26.config = true ∧
      (presents partial26 [.tick 18, .reset, .append .one 18, .edge .data0 .low 20]).trace =
        [Instr.tick 18, .reset, .append .one 18, .edge .data0 .low 20].map encode ∧
      monotonicFrom 18 [.tick 18, .reset, .append .one 18, .edge .data0 .low 20] = true ∧
      partial26.lu.toNat ≤ (18 : Timestamp).toNat ∧ partial26.le.toNat ≤ (18 : Timestamp).toNat ∧
      Instr.edge .data0 .low 20 ∈ [Instr.tick 18, .reset, .append .one 18, .edge .data0 .low 20].drop 3 := by decide

/-- A single APPEND with `W = 1`, and two with `W = 26`. -/
theorem witness_AppendsAccumulateTheSequence :
    ((State.powerOn ⟨1, 500, 0, true⟩).Inv ∧ ([] : List (Bit × Timestamp)).length + 1 ≤ 1) ∧
      (State.reset.Inv ∧ State.reset.cnt = 0 ∧
        [(Bit.one, (3 : Timestamp))].length + 1 ≤ State.reset.config.expectedWidth.toNat ∧
        (presents State.reset [.append .one 3, .append .zero 4, .decode]).trace =
          ([(Bit.one, (3 : Timestamp))] ++ [(Bit.zero, 4)]).map (fun p : Bit × Timestamp => encode (.append p.1 p.2)) ++
            [encode .decode]) := by decide

theorem witness_IncrementalDecodeEqualsBatchDecode :
    (State.powerOn ⟨1, 500, 0, true⟩).Inv ∧ (State.powerOn ⟨1, 500, 0, true⟩).cnt = 0 ∧
      [(Bit.one, (3 : Timestamp))].length = (State.powerOn ⟨1, 500, 0, true⟩).config.expectedWidth.toNat ∧
      (presents (State.powerOn ⟨1, 500, 0, true⟩) [.append .one 3, .decode, .reset]).trace =
        [(Bit.one, (3 : Timestamp))].map (fun p => encode (.append p.1 p.2)) ++ encode .decode :: [encode .reset] := by
  decide

/-- Three pulses with `W = 3`, exactly the debounce interval apart. -/
theorem witness_CardReadEmitsItsFrame :
    (State.powerOn ⟨3, 500, 2, true⟩).Inv ∧ (State.powerOn ⟨3, 500, 2, true⟩).cnt = 0 ∧
      [Bit.one, Bit.zero].length + 1 = (State.powerOn ⟨3, 500, 2, true⟩).config.expectedWidth.toNat ∧
      (State.powerOn ⟨3, 500, 2, true⟩).config.debounceInterval.toNat ≤ 2 ∧
      (State.powerOn ⟨3, 500, 2, true⟩).debounceAccepts (BitVec.ofNat 64 5) = true ∧
      AsmLine.words (.bits ([.one, .zero] ++ [.one]) 5 2) =
        some [0x420000000000000005, 0x400000000000000007, 0x420000000000000009] ∧
      (presents (State.powerOn ⟨3, 500, 2, true⟩)
        [.edge .data1 .low 5, .edge .data0 .low 7, .edge .data1 .low 9, .tick 600]).trace =
        [0x420000000000000005, 0x400000000000000007, 0x420000000000000009] ++ [encode (.tick 600)] := by decide

end Sys2Proof.Tests
end

section
/-! PROOFS. Who writes the frame buffer (10_state.md R15): the append and the clear, and nothing that follows them. -/

namespace Sys2Proof.Machine

/-- `t` has the frame buffer of `s`. -/
abbrev State.SameBuffer (s t : State) : Prop :=
  t.sr = s.sr ∧ t.cnt = s.cnt ∧ t.lu = s.lu ∧ t.luValid = s.luValid

/-- The buffer of `t` is that of `s` with `bit` added at time `now`, or `bit` alone: the two branches of R61. -/
abbrev State.TakesBit (s t : State) (bit : Bit) (now : Timestamp) : Prop :=
  t.lu = now ∧ t.luValid = true ∧
    ((t.cnt = s.cnt + 1 ∧ t.sr = BitVec.ofNat 34 (2 * s.sr.toNat + bit.code.toNat)) ∨
      (t.cnt = 1 ∧ t.sr = BitVec.ofNat 34 bit.code.toNat))

theorem State.TakesBit.of_sameBuffer {s t u : State} {bit : Bit} {now : Timestamp}
    (ht : s.TakesBit t bit now) (hu : t.SameBuffer u) : s.TakesBit u bit now := by
  obtain ⟨hsr, hcnt, hlu, hvalid⟩ := hu
  rwa [State.TakesBit, hsr, hcnt, hlu, hvalid]

/-! ### What each operation does to the buffer -/

theorem appendBit_takesBit (bit : Bit) (now : Timestamp) (s : State) :
    s.TakesBit (appendBit bit now s).1 bit now := by
  obtain ⟨-, h⟩ | ⟨-, h⟩ := appendBit_cases s bit now
  · rw [h]
    exact ⟨rfl, rfl, .inr ⟨rfl, bit_eq_ofNat bit⟩⟩
  · rw [h]
    exact ⟨rfl, rfl, .inl ⟨rfl, shift_eq_double_add s.sr bit⟩⟩

/-- Whatever leaves the buffer of a timeout check alone ends with the buffer as it was before the check, or empty. -/
theorem sameBuffer_or_empty_of_checkTimeout {now : Timestamp} {s u : State}
    (hu : (checkTimeout now s).1.SameBuffer u) : s.SameBuffer u ∨ u.BufferEmpty := by
  unfold checkTimeout at hu
  split at hu
  · exact .inr hu
  · exact .inl hu

theorem issueDirectly_sameBuffer (p : State × Result) : p.1.SameBuffer (issueDirectly p) := by
  simp [State.SameBuffer, issueDirectly]

/-- EDGE clears the buffer of a completed frame, and otherwise leaves what the append left. -/
theorem finishEdge_sameBuffer_or_empty (p : State × Result) :
    p.1.SameBuffer (finishEdge p) ∨ (finishEdge p).BufferEmpty := by
  obtain ⟨u, frameReady, discarded⟩ := p
  cases frameReady with
  | none => left; simp [State.SameBuffer, finishEdge_no_frame]
  | some q => right; simp [State.BufferEmpty, finishEdge_frame]

/-- TICK leaves the buffer the check left. -/
theorem finishTick_sameBuffer (p : State × Result) : p.1.SameBuffer (finishTick p) := by
  obtain ⟨u, frameReady, discarded⟩ := p
  cases frameReady with
  | none => simp [State.SameBuffer, finishTick_no_frame]
  | some q => simp [State.SameBuffer, finishTick_frame]

/-- An accepted edge adds its bit to the buffer, or completes the frame and leaves the buffer empty. -/
theorem acceptEdge_takesBit_or_empty (line : Line) (ts : Timestamp) (s : State) :
    s.TakesBit (acceptEdge line ts s) (bitOfLine line) ts ∨ (acceptEdge line ts s).BufferEmpty := by
  have happend := appendBit_takesBit (bitOfLine line) ts ((s.setLastEdge ts).emit (.bit line (bitOfLine line)))
  exact (finishEdge_sameBuffer_or_empty _).imp_left happend.of_sameBuffer

/-! ### The statement of R15 -/

/-- Settles O47: by cases on the command, each made of an append, a timeout check or a clear, and of operations that
leave the buffer alone. -/
theorem bufferIsMutatedOnlyByAppendAndClear : Obligations.BufferIsMutatedOnlyByAppendAndClear := by
  intro i s
  cases i with
  | append bit now =>
    have happend := appendBit_takesBit bit now s.beginCommand
    exact ⟨_, rfl, .inr (.inr ⟨bit, now, .inl rfl, happend.of_sameBuffer (issueDirectly_sameBuffer _)⟩)⟩
  | checkTimeout now =>
    have hcheck := sameBuffer_or_empty_of_checkTimeout (issueDirectly_sameBuffer (checkTimeout now s.beginCommand))
    exact ⟨_, rfl, hcheck.imp_right fun hempty => .inl ⟨nofun, hempty⟩⟩
  | reset => exact ⟨_, rfl, .inr (.inl ⟨nofun, rfl, rfl, rfl, rfl⟩)⟩
  | decode => exact ⟨_, rfl, .inl (by simp)⟩
  | edge line level ts =>
    cases level with
    | high => exact ⟨_, rfl, .inl (by simp)⟩
    | low =>
      cases hguard : s.debounceAccepts ts with
      | false => exact ⟨s.beginCommand, by simp [exec, execEdge, hguard], .inl (by simp)⟩
      | true =>
        refine ⟨acceptEdge line ts s.beginCommand, by simp [exec, execEdge, hguard], .inr ?_⟩
        obtain htakes | hempty := acceptEdge_takesBit_or_empty line ts s.beginCommand
        · exact .inr ⟨bitOfLine line, ts, .inr ⟨line, rfl⟩, htakes⟩
        · exact .inl ⟨nofun, hempty⟩
  | tick now =>
    have hcheck := sameBuffer_or_empty_of_checkTimeout (finishTick_sameBuffer (checkTimeout now s.beginCommand))
    exact ⟨_, rfl, hcheck.imp_right fun hempty => .inl ⟨nofun, hempty⟩⟩

end Sys2Proof.Machine
end

section
/-! PROOFS. What changes nothing (20_memory.md R35, 30_encoding.md R49): each of these commands ends in
`State.beginCommand`, or in it with one event. -/

namespace Sys2Proof.Machine

variable (s : State)

/-! ### The guards, as they refuse -/

theorem State.debounceAccepts_eq_false_iff (ts : Timestamp) :
    s.debounceAccepts ts = false ↔
      s.leValid = true ∧ ts.toNat < s.le.toNat + s.config.debounceInterval.toNat := by
  rw [← Bool.not_eq_true, State.debounceAccepts_iff]
  simp

theorem State.timedOut_eq_false_iff (now : Timestamp) :
    s.timedOut now = false ↔ s.cnt = 0 ∨ now.toNat ≤ s.lu.toNat + s.config.bitTimeout.toNat := by
  rw [← Bool.not_eq_true, State.timedOut_iff, not_and_or, not_not, not_lt]

/-! ### The commands that only empty the outputs, and the read -/

theorem exec_edge_high (line : Line) (ts : Timestamp) :
    exec (.edge line .high ts) s = .next s.beginCommand := rfl

theorem exec_edge_low_of_dropped (line : Line) {ts : Timestamp} (hdrop : s.debounceAccepts ts = false) :
    exec (.edge line .low ts) s = .next s.beginCommand := by
  simp [exec, execEdge, hdrop]

theorem exec_checkTimeout_of_not_timedOut {now : Timestamp} (h : s.timedOut now = false) :
    exec (.checkTimeout now) s = .next s.beginCommand := by
  have hcheck := checkTimeout_of_not_timedOut s.beginCommand now h
  rw [exec, execCheckTimeout, hcheck]
  rfl

theorem exec_tick_of_not_timedOut {now : Timestamp} (h : s.timedOut now = false) :
    exec (.tick now) s = .next s.beginCommand := by
  have hcheck := checkTimeout_of_not_timedOut s.beginCommand now h
  rw [exec, execTick, hcheck]
  rfl

/-- DECODE emits the outcome of the Decode of the buffer and does nothing else (R88). -/
theorem exec_decode_emits :
    exec .decode s = .next (s.beginCommand.emit (decodedWith s.config s.sr s.cnt.toNat)) := by
  rw [exec, execDecode, State.decodeAndEmit_eq]
  rfl

/-! ### The statement of R35 and R49 -/

/-- Settles O33: the level filter, the debounce guard and the timeout test each leave `State.beginCommand`, and
DECODE adds its one event to it. -/
theorem readsAndIgnoredCommandsChangeNothing : Obligations.ReadsAndIgnoredCommandsChangeNothing := by
  intro s line ts
  refine ⟨⟨_, exec_edge_high s line ts⟩, fun hvalid hearly => ?_, fun hwithin => ?_, _, _, exec_decode_emits s⟩
  · have hdrop := (s.debounceAccepts_eq_false_iff ts).2 ⟨hvalid, hearly⟩
    exact ⟨_, exec_edge_low_of_dropped s line hdrop⟩
  · have hnot := (s.timedOut_eq_false_iff ts).2 hwithin
    exact ⟨exec_checkTimeout_of_not_timedOut s hnot, _, exec_tick_of_not_timedOut s hnot⟩

end Sys2Proof.Machine
end

section
/-! PROOFS. A field is the value of its slice (30_encoding.md R44): the slice is the sequence of the register shifted
right, and the value of a register's `n` last-arrived bits is its remainder by `2^n`. -/

namespace Sys2Proof.Machine

@[simp] theorem bitsOf_zero (v : FrameBits) : bitsOf v 0 = [] := rfl

/-- The last-arrived bit is `v[0]`; those before it are the sequence of `v >> 1` (R12). -/
theorem bitsOf_succ (v : FrameBits) (n : Nat) :
    bitsOf v (n + 1) = bitsOf (v >>> 1) n ++ [Bit.ofCode (v.getLsbD 0)] := by
  have hearlier : ∀ i ∈ List.range n,
      Bit.ofCode (v.getLsbD (n - i)) = Bit.ofCode ((v >>> 1).getLsbD (n - 1 - i)) := by
    intro i hi
    have hi : i < n := List.mem_range.1 hi
    have hindex : n - i = 1 + (n - 1 - i) := by omega
    rw [BitVec.getLsbD_ushiftRight, hindex]
  simpa [bitsOf, List.range_succ] using hearlier

/-- The value of the last `n` bits of any register, whatever stands above them. -/
theorem bitsValue_bitsOf (v : FrameBits) (n : Nat) : bitsValue (bitsOf v n) = v.toNat % 2 ^ n := by
  induction n generalizing v with
  | zero => simp [bitsValue_nil, Nat.mod_one]
  | succ n ih =>
    have hlast : (Bit.ofCode (v.getLsbD 0)).code.toNat = v.toNat % 2 := by
      rw [Bit.code_ofCode, BitVec.getLsbD, Nat.toNat_testBit, Nat.pow_zero, Nat.div_one]
    rw [bitsOf_succ, bitsValue_append_one, ih, hlast, BitVec.toNat_ushiftRight, Nat.shiftRight_one, Nat.pow_succ',
      Nat.mod_mul, Nat.add_comm]

/-- The bits `[start, start + length)` of the sequence are those of the register shifted right (R44). -/
theorem take_drop_bitsOf (v : FrameBits) {w start length : Nat} (h : start + length ≤ w) :
    ((bitsOf v w).drop start).take length = bitsOf (v >>> (w - start - length)) length := by
  apply List.ext_getElem
  · have hlength : length ≤ w - start := by omega
    simp [hlength]
  · intro i _ hi
    have hi : i < length := by simpa using hi
    have hindex : w - 1 - (start + i) = w - start - length + (length - 1 - i) := by omega
    simp [bitsOf, hindex]

/-- `& (2^l - 1)` is the remainder by `2^l`. -/
theorem fieldValue_eq_mod (v : FrameBits) (w start length : Nat) :
    fieldValue v w start length = (v >>> (w - start - length)).toNat % 2 ^ length := by
  rw [fieldValue, Nat.and_two_pow_sub_one_eq_mod, BitVec.toNat_ushiftRight]

/-- Settles O26: all three forms are the remainder by `2^l` of the register shifted right by `W - s - l`. -/
theorem fieldIsTheValueOfItsSlice : Obligations.FieldIsTheValueOfItsSlice := by
  intro v w start length _ _ hslice
  refine ⟨?_, rfl, ?_⟩
  · rw [take_drop_bitsOf v hslice, bitsValue_bitsOf, fieldValue_eq_mod]
  · rw [fieldValue_eq_mod, BitVec.extractLsb'_toNat, BitVec.toNat_ushiftRight]

end Sys2Proof.Machine
end

section
/-! PROOFS. The accumulator commands issued directly (40_accumulator.md): the whole next state of APPEND,
CHECK_TIMEOUT and RESET, one lemma per branch, and from these the statements of R60, R63, R64, R66 and R67. -/

namespace Sys2Proof.Machine

section Branches

variable (s : State)

/-! ### The next state of each command, branch by branch -/

/-- The overrun branch of APPEND (R61, R63). -/
theorem exec_append_of_full (bit : Bit) (now : Timestamp) (h : s.cnt = s.config.expectedWidth) :
    exec (.append bit now) s = .next { s.startBuffer bit now with
      result := ⟨(s.startBuffer bit now).frameReadySignal, some ⟨s.sr, s.cnt.toNat⟩⟩
      events := [.incomplete s.sr s.cnt.toNat] } := by
  rw [exec, execAppend, appendBit_of_full s.beginCommand bit now h]
  rfl

/-- The normal branch of APPEND (R61). -/
theorem exec_append_of_not_full (bit : Bit) (now : Timestamp) (h : s.cnt ≠ s.config.expectedWidth) :
    exec (.append bit now) s = .next { s.shiftIn bit now with
      result := ⟨(s.shiftIn bit now).frameReadySignal, none⟩
      events := [] } := by
  rw [exec, execAppend, appendBit_of_not_full s.beginCommand bit now h]
  rfl

theorem exec_checkTimeout_of_full {now : Timestamp} (h : s.timedOut now = true)
    (hfull : s.cnt = s.config.expectedWidth) :
    exec (.checkTimeout now) s =
      .next { s.clearBuffer with result := ⟨some ⟨s.sr, s.cnt.toNat⟩, none⟩, events := [] } := by
  rw [exec, execCheckTimeout, checkTimeout_of_full s.beginCommand now h hfull]
  rfl

theorem exec_checkTimeout_of_partial {now : Timestamp} (h : s.timedOut now = true)
    (hpartial : s.cnt ≠ s.config.expectedWidth) :
    exec (.checkTimeout now) s =
      .next { s.clearBuffer with
        result := ⟨none, some ⟨s.sr, s.cnt.toNat⟩⟩, events := [.incomplete s.sr s.cnt.toNat] } := by
  rw [exec, execCheckTimeout, checkTimeout_of_partial s.beginCommand now h hpartial]
  rfl

/-- Everything a CHECK_TIMEOUT can do. -/
theorem exec_checkTimeout_cases (now : Timestamp) :
    (s.timedOut now = false ∧
      exec (.checkTimeout now) s = .next { s with result := ⟨none, none⟩, events := [] }) ∨
    (s.timedOut now = true ∧ s.cnt = s.config.expectedWidth ∧
      exec (.checkTimeout now) s =
        .next { s.clearBuffer with result := ⟨some ⟨s.sr, s.cnt.toNat⟩, none⟩, events := [] }) ∨
    (s.timedOut now = true ∧ s.cnt ≠ s.config.expectedWidth ∧
      exec (.checkTimeout now) s =
        .next { s.clearBuffer with
          result := ⟨none, some ⟨s.sr, s.cnt.toNat⟩⟩, events := [.incomplete s.sr s.cnt.toNat] }) := by
  cases h : s.timedOut now with
  | false => exact .inl ⟨rfl, exec_checkTimeout_of_not_timedOut s h⟩
  | true =>
    by_cases hfull : s.cnt = s.config.expectedWidth
    · exact .inr (.inl ⟨rfl, hfull, exec_checkTimeout_of_full s h hfull⟩)
    · exact .inr (.inr ⟨rfl, hfull, exec_checkTimeout_of_partial s h hfull⟩)

theorem exec_reset :
    exec .reset s = .next { s.clearBuffer with result := ⟨none, none⟩, events := [] } := rfl

/-! ### Facts about the buffer -/

theorem State.frameReadySignal_eq_some_iff (p : Snapshot) :
    s.frameReadySignal = some p ↔ s.cnt = s.config.expectedWidth ∧ p = ⟨s.sr, s.cnt.toNat⟩ := by
  rw [State.frameReadySignal_eq, Option.ite_none_right_eq_some, Option.some_inj, eq_comm (a := p)]

variable {s}

/-- The count of a good buffer that is not full does not wrap. -/
theorem State.BufferInv.cnt_succ_toNat_le (h : s.BufferInv) (hpartial : s.cnt ≠ s.config.expectedWidth) :
    (s.cnt + 1).toNat ≤ s.config.expectedWidth.toNat := by
  obtain ⟨hle, -⟩ := h
  bv_omega

theorem State.Inv.width_pos (h : s.Inv) : 1 ≤ s.config.expectedWidth.toNat := by
  obtain ⟨hlegal, -⟩ := h
  exact ((configLegal_iff s.config).1 hlegal).1

end Branches

/-! ### The statements -/

/-- Settles O17: by the two branches of APPEND. In the overrun branch, RESET leaves an empty buffer, which is not full
since the width is at least 1, and the bit shifted into it is the buffer the overrun starts. -/
theorem overrunReportsTheStaleFrameAndRestarts : Obligations.OverrunReportsTheStaleFrameAndRestarts := by
  intro bit now s hinv
  have hpos := hinv.width_pos
  by_cases hfull : s.cnt = s.config.expectedWidth
  · have hempty : (0 : BitCount) ≠ s.config.expectedWidth := by bv_omega
    refine ⟨_, exec_append_of_full s bit now hfull, by simp [hfull], hpos, fun _ => ⟨by rw [hfull], by rw [hfull],
      rfl, rfl, rfl, ⟨_, _, exec_reset s, exec_append_of_not_full _ bit now hempty, ?_⟩, fun hw => ?_, fun hw => ?_⟩⟩
    · simp
    · exact State.frameReadySignal_of_not_full _ (Ne.symm hw)
    · exact State.frameReadySignal_of_full _ hw.symm
  · obtain ⟨-, hbuffer, -⟩ := hinv
    exact ⟨_, exec_append_of_not_full s bit now hfull, by simp [hfull], hbuffer.cnt_succ_toNat_le hfull,
      fun h => absurd h hfull⟩

/-- Settles O18: by the three branches of CHECK_TIMEOUT. -/
theorem checkTimeoutFollowsItsRule : Obligations.CheckTimeoutFollowsItsRule := by
  intro now s
  refine ⟨rfl, ?_⟩
  have htimed := s.timedOut_iff now
  obtain ⟨hnot, h⟩ | ⟨hout, hfull, h⟩ | ⟨hout, hpartial, h⟩ := exec_checkTimeout_cases s now
  · rw [h, if_neg (mt htimed.2 (by simp [hnot]))]
  · rw [h, if_pos (htimed.1 hout), if_pos hfull, if_pos hfull]
    rfl
  · rw [h, if_pos (htimed.1 hout), if_neg hpartial, if_neg hpartial]
    rfl

/-- Settles O19: by the three branches of CHECK_TIMEOUT. A full buffer is not empty, since the width is at least 1. -/
theorem timeoutCornerCases : Obligations.TimeoutCornerCases := by
  intro now s hinv
  have hpos := hinv.width_pos
  obtain ⟨hnot, h⟩ | ⟨hout, hfull, h⟩ | ⟨hout, hpartial, h⟩ := exec_checkTimeout_cases s now
  · have hearly : s.cnt ≠ 0 → ¬ s.lu.toNat + s.config.bitTimeout.toNat < now.toNat := by
      rw [State.timedOut_eq_false_iff, ← not_lt] at hnot
      exact hnot.resolve_left
    exact ⟨_, h, fun hempty => ⟨rfl, rfl, hempty⟩,
      fun hcnt hzero hlate => absurd (by simpa [hzero] using hlate) (hearly hcnt),
      fun _ => rfl, fun _ => rfl, nofun,
      fun _ hcnt hlate => absurd hlate (hearly hcnt),
      fun hfull hlate => absurd hlate (hearly (by bv_omega)),
      fun hsome _ hlate => absurd hlate (hearly (by bv_omega))⟩
  · obtain ⟨hcnt, hlate⟩ := (s.timedOut_iff now).1 hout
    refine ⟨_, h, fun hempty => absurd hempty hcnt, fun _ _ _ => ⟨rfl, nofun⟩, fun hwithin => ?_, fun hbefore => ?_,
      nofun, fun hlacksOne => ?_, fun _ _ => ⟨by rw [hfull], rfl⟩, fun _ hless => ?_⟩
    · omega
    · omega
    · rw [hfull] at hlacksOne
      omega
    · rw [hfull] at hless
      omega
  · obtain ⟨hcnt, hlate⟩ := (s.timedOut_iff now).1 hout
    refine ⟨_, h, fun hempty => absurd hempty hcnt, fun _ _ _ => ⟨rfl, nofun⟩, fun hwithin => ?_, fun hbefore => ?_,
      ?_, fun hlacksOne _ _ => ?_, fun hfull => absurd hfull hpartial, fun _ _ _ => ⟨rfl, rfl, rfl, rfl, rfl⟩⟩
    · omega
    · omega
    · rintro p ⟨⟩
      bv_omega
    · rw [← hlacksOne, Nat.add_sub_cancel]

/-- Settles O20: RESET is the clear of the buffer with the outputs emptied. -/
theorem resetFollowsItsRule : Obligations.ResetFollowsItsRule := fun s => ⟨rfl, exec_reset s⟩

/-- Settles O22: by the branches of the three commands. Where APPEND returns `frame_ready` the count equals the width;
in the overrun branch the count is 1, so both signals come only with `W = 1`. -/
theorem resultSignalsOfAccumulatorCommands : Obligations.ResultSignalsOfAccumulatorCommands := by
  rintro i s - (⟨bit, now, rfl⟩ | ⟨now, rfl⟩ | rfl)
  · by_cases hfull : s.cnt = s.config.expectedWidth
    · refine ⟨_, exec_append_of_full s bit now hfull, fun p hp => ?_, ?_, nofun, fun hready _ => ?_⟩
      · obtain ⟨hone, rfl⟩ := (State.frameReadySignal_eq_some_iff _ p).1 hp
        exact ⟨congrArg BitVec.toNat hone, .inl rfl⟩
      · rintro p ⟨⟩
        exact ⟨rfl, rfl⟩
      · obtain ⟨p, hp⟩ := Option.ne_none_iff_exists'.1 hready
        obtain ⟨hone, -⟩ := (State.frameReadySignal_eq_some_iff _ p).1 hp
        exact ⟨hone.symm, bit, now, rfl⟩
    · refine ⟨_, exec_append_of_not_full s bit now hfull, fun p hp => ?_, nofun, fun _ => rfl,
        fun _ hincomplete => absurd rfl hincomplete⟩
      obtain ⟨hcompletes, rfl⟩ := (State.frameReadySignal_eq_some_iff _ p).1 hp
      exact ⟨congrArg BitVec.toNat hcompletes, .inl rfl⟩
  · obtain ⟨-, h⟩ | ⟨-, hfull, h⟩ | ⟨-, -, h⟩ := exec_checkTimeout_cases s now
    · exact ⟨_, h, nofun, nofun, fun _ => rfl, fun hready => absurd rfl hready⟩
    · refine ⟨_, h, ?_, nofun, fun _ => rfl, fun _ hincomplete => absurd rfl hincomplete⟩
      rintro p ⟨⟩
      exact ⟨congrArg BitVec.toNat hfull, .inr ⟨rfl, rfl, rfl, rfl, rfl⟩⟩
    · refine ⟨_, h, nofun, ?_, nofun, fun hready => absurd rfl hready⟩
      rintro p ⟨⟩
      exact ⟨rfl, rfl⟩
  · exact ⟨_, exec_reset s, nofun, nofun, fun _ => rfl, fun hready => absurd rfl hready⟩

end Sys2Proof.Machine
end

section
/-! PROOFS. The pure function Decode (41_frame_decoder.md): its answer case by case, the binary string and the fields
of a supported format, and from these the statements of R82, R84, R85 and R86. -/

namespace Sys2Proof.Machine

/-! ### What Decode answers (R81, R89) -/

theorem decodeFrame_of_wrong_length (v : FrameBits) {n w : Nat} (degraded : Bool) (h : n ≠ w) :
    decodeFrame v n w degraded = .error (.formatMismatch n w) := by
  simp [decodeFrame, h]

theorem decodeFrame_of_unsupported (v : FrameBits) {w : Nat} (h26 : w ≠ 26) (h34 : w ≠ 34) :
    decodeFrame v w w false = .error (.unsupportedFormat w) := by
  simp [decodeFrame, formatSupported, h26, h34]

theorem decodeFrame_of_supported (v : FrameBits) {w : Nat} (degraded : Bool) (h : w = 26 ∨ w = 34) :
    decodeFrame v w w degraded =
      .ok ⟨binaryString v w, hexString v w, frameField v w .facilityCode, frameField v w .cardNumber, w⟩ := by
  simp [decodeFrame, formatSupported, h]

/-- A successful Decode had the right length and answers the strings and the fields of its frame. -/
theorem eq_of_decodeFrame_ok {v : FrameBits} {n w : Nat} {degraded : Bool} {f : DecodedFrame}
    (h : decodeFrame v n w degraded = .ok f) :
    n = w ∧
      f = ⟨binaryString v n, hexString v w, frameField v w .facilityCode, frameField v w .cardNumber, n⟩ := by
  obtain ⟨-, hcase⟩ | ⟨-, -, -, -, hcase⟩ | ⟨hlength, -, hcase⟩ := decodeFrame_cases v n w degraded
  · cases h.symm.trans hcase
  · cases h.symm.trans hcase
  · exact ⟨hlength, Except.ok.inj (h.symm.trans hcase)⟩

/-! ### The binary string (R82) -/

theorem digitValue_bitChar (b : Bit) : digitValue (bitChar b) = some b.code.toNat := by
  cases b <;> decide

/-- The characters of a bit sequence, read in base 2, are its value. -/
theorem parseBase_map_bitChar (bits : List Bit) : parseBase 2 (bits.map bitChar) = some (bitsValue bits) := by
  induction bits using List.reverseRecOn with
  | nil => rfl
  | append_singleton bits b ih =>
    rw [List.map_append, List.map_singleton, bitsValue_append_one]
    exact parseBase_append_one 2 _ _ _ _ ih (digitValue_bitChar b) (Bool.toNat_lt b.code)

/-- The binary string of a register that holds nothing above its `n` bits reads the register. -/
theorem parseBase_binaryString {v : FrameBits} {n : Nat} (h : v.toNat < 2 ^ n) :
    parseBase 2 (binaryString v n) = some v.toNat := by
  rw [binaryString, parseBase_map_bitChar, bitsValue_bitsOf, Nat.mod_eq_of_lt h]

theorem bitChar_ofCode (c : Bool) : bitChar (Bit.ofCode c) = if c then '1' else '0' := by
  cases c <;> rfl

theorem binaryString_getElem? (v : FrameBits) {n i : Nat} (h : i < n) :
    (binaryString v n)[i]? = some (if v.getLsbD (n - 1 - i) then '1' else '0') := by
  simp [binaryString, bitsOf, h, bitChar_ofCode]

/-- Settles O24: a successful Decode answers the binary string of its frame, which shows one bit per character and, in
base 2, reads the value of the bits. -/
theorem binaryStringShowsTheFrameInArrivalOrder : Obligations.BinaryStringShowsTheFrameInArrivalOrder := by
  intro v n w degraded f _ hfits hdecode
  obtain ⟨hlength, rfl⟩ := eq_of_decodeFrame_ok hdecode
  exact ⟨binaryString_length v n, fun i hi => binaryString_getElem? v hi, parseBase_binaryString hfits, rfl, hlength⟩

/-! ### The fields of the two supported formats (R84, R85) -/

theorem shift_and_mask_eq_slice (v : FrameBits) (start length : Nat) :
    (v.toNat >>> start) &&& (2 ^ length - 1) = (v.extractLsb' start length).toNat := by
  rw [Nat.and_two_pow_sub_one_eq_mod, BitVec.extractLsb'_toNat]

/-- A slice that lies in a range of bits is fixed by the bits of the range. -/
theorem slice_congr_of_range {v v' : FrameBits} {low count start length : Nat}
    (h : v'.extractLsb' low count = v.extractLsb' low count) (hlow : low ≤ start)
    (hhigh : start + length ≤ low + count) : v'.extractLsb' start length = v.extractLsb' start length := by
  ext i hi
  have hbit := congrArg (fun range => range.getLsbD (start - low + i)) h
  have hcount : start - low + i < count := by omega
  have hindex : low + (start - low + i) = start + i := by omega
  simpa [BitVec.getLsbD_extractLsb', hcount, hindex] using hbit

section SupportedFormat

variable {w : Nat} (h : w = 26 ∨ w = 34)
include h

/-- In both layouts (R45, R46) the facility code is the 8 bits below the top bit. -/
theorem frameField_facilityCode_of_supported (v : FrameBits) :
    frameField v w .facilityCode = some ((v.toNat >>> (w - 9)) &&& (2 ^ 8 - 1)) := by
  obtain rfl | rfl := h
  · rfl
  · rfl

/-- In both layouts (R45, R46) the card number is the bits between the facility code and `v[0]`. -/
theorem frameField_cardNumber_of_supported (v : FrameBits) :
    frameField v w .cardNumber = some ((v.toNat >>> 1) &&& (2 ^ (w - 10) - 1)) := by
  obtain rfl | rfl := h
  · rfl
  · rfl

/-- The top bit `v[w-1]` and the last bit `v[0]` enter no field. -/
theorem frameField_congr_of_claimed_bits {v v' : FrameBits}
    (hclaimed : v'.extractLsb' 1 (w - 2) = v.extractLsb' 1 (w - 2)) (name : FieldName) :
    frameField v' w name = frameField v w name := by
  have hwidth : 26 ≤ w := by omega
  cases name with
  | facilityCode =>
    rw [frameField_facilityCode_of_supported h, frameField_facilityCode_of_supported h, shift_and_mask_eq_slice,
      shift_and_mask_eq_slice, slice_congr_of_range hclaimed (by omega) (by omega)]
  | cardNumber =>
    rw [frameField_cardNumber_of_supported h, frameField_cardNumber_of_supported h, shift_and_mask_eq_slice,
      shift_and_mask_eq_slice, slice_congr_of_range hclaimed (by omega) (by omega)]

/-- What R84 and R85 say of their formats, in terms of the width. -/
theorem decodeFrame_extracts_fields_of_supported (v : FrameBits) (degraded : Bool) :
    ∃ f, decodeFrame v w w degraded = .ok f ∧
      f.facilityCode = some ((v.toNat >>> (w - 9)) &&& (2 ^ 8 - 1)) ∧
      f.facilityCode = some (v.extractLsb' (w - 9) 8).toNat ∧
      f.cardNumber = some ((v.toNat >>> 1) &&& (2 ^ (w - 10) - 1)) ∧
      f.cardNumber = some (v.extractLsb' 1 (w - 10)).toNat ∧
      ∀ v' : FrameBits, v'.extractLsb' 1 (w - 2) = v.extractLsb' 1 (w - 2) →
        ∃ f', decodeFrame v' w w degraded = .ok f' ∧
          f'.facilityCode = f.facilityCode ∧ f'.cardNumber = f.cardNumber := by
  have hfacility := frameField_facilityCode_of_supported h v
  have hcard := frameField_cardNumber_of_supported h v
  refine ⟨_, decodeFrame_of_supported v degraded h, hfacility, ?_, hcard, ?_, fun v' hclaimed =>
    ⟨_, decodeFrame_of_supported v' degraded h, ?_, ?_⟩⟩
  · rw [hfacility, shift_and_mask_eq_slice]
  · rw [hcard, shift_and_mask_eq_slice]
  · exact frameField_congr_of_claimed_bits h hclaimed .facilityCode
  · exact frameField_congr_of_claimed_bits h hclaimed .cardNumber

end SupportedFormat

/-- Settles O27: the fields of a supported format, at `W` = 26. -/
theorem format26ExtractsItsFields : Obligations.Format26ExtractsItsFields :=
  decodeFrame_extracts_fields_of_supported (.inl rfl)

/-- Settles O28: the fields of a supported format, at `W` = 34. -/
theorem format34ExtractsItsFields : Obligations.Format34ExtractsItsFields :=
  decodeFrame_extracts_fields_of_supported (.inr rfl)

end Sys2Proof.Machine
end

section
/-! PROOFS. The command DECODE, and who reports FormatMismatch (41_frame_decoder.md R81, R88): a snapshot that a
transaction hands to Decode holds `W` bits, so only a DECODE can meet the length check. -/

namespace Sys2Proof.Machine

/-! ### The command DECODE -/

theorem decodedWith_of_partial (c : Configuration) (v : FrameBits) {cnt : BitCount} (h : cnt ≠ c.expectedWidth) :
    decodedWith c v cnt.toNat = .decodeError (.formatMismatch cnt.toNat c.expectedWidth.toNat) := by
  have hlength := mt BitVec.eq_of_toNat_eq h
  rw [decodedWith, decodeFrame_of_wrong_length v _ hlength, outcomeEvent]

/-- Settles O32: DECODE emits the one event of the Decode of the buffer, whose two errors are the length check and the
format check. -/
theorem decodeFollowsItsRule : Obligations.DecodeFollowsItsRule := by
  intro s
  refine ⟨rfl, decodedWith s.config s.sr s.cnt.toNat, _, exec_decode_emits s, fun f hok => ?_, fun c herror => ?_,
    decodedWith_of_partial s.config s.sr, fun hfull h26 h34 hstrict => ?_⟩
  · rw [decodedWith, hok, outcomeEvent]
  · rw [decodedWith, herror, outcomeEvent]
  · have hnot26 : s.config.expectedWidth.toNat ≠ 26 := by bv_omega
    have hnot34 : s.config.expectedWidth.toNat ≠ 34 := by bv_omega
    rw [decodedWith, hfull, hstrict, decodeFrame_of_unsupported s.sr hnot26 hnot34, outcomeEvent]

/-! ### Who reports FormatMismatch -/

/-- No event of the list reports FormatMismatch. -/
abbrev NoFormatMismatch (events : List Event) : Prop :=
  ∀ n w, Event.decodeError (.formatMismatch n w) ∉ events

/-- The snapshot for Decode, where there is one, holds the number of bits the configuration expects. -/
abbrev ReadyAtFullLength (p : State × Result) : Prop :=
  ∀ q, p.2.frameReady = some q → q.n = p.1.config.expectedWidth.toNat

theorem decodedWith_ne_formatMismatch {c : Configuration} (v : FrameBits) {k : Nat} (h : k = c.expectedWidth.toNat)
    (n w : Nat) : decodedWith c v k ≠ .decodeError (.formatMismatch n w) := by
  obtain ⟨hne, -⟩ | ⟨-, -, -, -, hcase⟩ | ⟨-, -, hcase⟩ := decodeFrame_cases v k c.expectedWidth.toNat c.degradedMode
  · exact absurd h hne
  · simp [decodedWith, hcase, outcomeEvent]
  · simp [decodedWith, hcase, outcomeEvent]

theorem State.emit_noFormatMismatch {s : State} {e : Event} (hs : NoFormatMismatch s.events)
    (he : ∀ n w, e ≠ .decodeError (.formatMismatch n w)) : NoFormatMismatch (s.emit e).events := by
  intro n w hmem
  obtain hold | hnew := List.mem_append.1 hmem
  · exact hs n w hold
  · exact he n w (List.mem_singleton.1 hnew).symm

theorem State.emitIncomplete_noFormatMismatch {s : State} (p : Option Snapshot) (hs : NoFormatMismatch s.events) :
    NoFormatMismatch (s.emitIncomplete p).events := by
  cases p with
  | none => exact hs
  | some p => exact State.emit_noFormatMismatch hs nofun

theorem issueDirectly_noFormatMismatch (p : State × Result) (hp : NoFormatMismatch p.1.events) :
    NoFormatMismatch (issueDirectly p).events :=
  State.emitIncomplete_noFormatMismatch p.2.incomplete hp

theorem finishTick_noFormatMismatch {p : State × Result} (hp : NoFormatMismatch p.1.events)
    (hready : ReadyAtFullLength p) : NoFormatMismatch (finishTick p).events := by
  obtain ⟨u, frameReady, discarded⟩ := p
  have hreported := State.emitIncomplete_noFormatMismatch discarded hp
  cases frameReady with
  | none => exact hreported
  | some q =>
    rw [finishTick_frame]
    exact State.emit_noFormatMismatch hreported (decodedWith_ne_formatMismatch q.v (hready q rfl))

/-- EDGE adds to what TICK does only the clear of the buffer, which emits nothing. -/
theorem finishEdge_events (p : State × Result) : (finishEdge p).events = (finishTick p).events := by
  obtain ⟨u, frameReady, discarded⟩ := p
  cases frameReady with
  | none => rfl
  | some q => rfl

theorem appendBit_events (bit : Bit) (now : Timestamp) (s : State) : (appendBit bit now s).1.events = s.events := by
  obtain ⟨-, h⟩ | ⟨-, h⟩ := appendBit_cases s bit now
  · rw [h, State.startBuffer_events]
  · rw [h, State.shiftIn_events]

theorem checkTimeout_events (now : Timestamp) (s : State) : (checkTimeout now s).1.events = s.events := by
  unfold checkTimeout
  split
  · rfl
  · rfl

/-- Whatever `frame_ready` signals has the width the detector compares the count with (R21). -/
theorem State.frameReadySignal_readyAtFullLength (s : State) (discarded : Option Snapshot) :
    ReadyAtFullLength (s, ⟨s.frameReadySignal, discarded⟩) := by
  intro q hq
  obtain ⟨hfull, rfl⟩ := (s.frameReadySignal_eq_some_iff q).1 hq
  exact congrArg BitVec.toNat hfull

theorem appendBit_readyAtFullLength (bit : Bit) (now : Timestamp) (s : State) :
    ReadyAtFullLength (appendBit bit now s) := by
  obtain ⟨-, h⟩ | ⟨-, h⟩ := appendBit_cases s bit now
  · exact h ▸ State.frameReadySignal_readyAtFullLength _ _
  · exact h ▸ State.frameReadySignal_readyAtFullLength _ _

theorem checkTimeout_readyAtFullLength (now : Timestamp) (s : State) : ReadyAtFullLength (checkTimeout now s) := by
  cases hout : s.timedOut now with
  | false => rw [checkTimeout_of_not_timedOut s now hout]; nofun
  | true =>
    by_cases hfull : s.cnt = s.config.expectedWidth
    · rw [checkTimeout_of_full s now hout hfull]
      rintro q ⟨⟩
      exact congrArg BitVec.toNat hfull
    · rw [checkTimeout_of_partial s now hout hfull]; nofun

theorem acceptEdge_noFormatMismatch (line : Line) (ts : Timestamp) {s : State} (hs : NoFormatMismatch s.events) :
    NoFormatMismatch (acceptEdge line ts s).events := by
  rw [acceptEdge, finishEdge_events]
  refine finishTick_noFormatMismatch ?_ (appendBit_readyAtFullLength _ _ _)
  rw [appendBit_events]
  exact State.emit_noFormatMismatch hs nofun

theorem exec_edge_low_of_accepted (line : Line) {ts : Timestamp} {s : State} (haccept : s.debounceAccepts ts = true) :
    exec (.edge line .low ts) s = .next (acceptEdge line ts s.beginCommand) := by
  simp [exec, execEdge, haccept]

/-- Of the commands only a DECODE reports FormatMismatch. -/
theorem exec_noFormatMismatch {i : Instr} (hi : i ≠ .decode) (s : State) :
    ∃ t, exec i s = .next t ∧ NoFormatMismatch t.events := by
  have hnone : NoFormatMismatch s.beginCommand.events := nofun
  cases i with
  | append bit now => exact ⟨_, rfl, issueDirectly_noFormatMismatch _ (by rwa [appendBit_events])⟩
  | checkTimeout now => exact ⟨_, rfl, issueDirectly_noFormatMismatch _ (by rwa [checkTimeout_events])⟩
  | reset => exact ⟨_, rfl, hnone⟩
  | decode => exact absurd rfl hi
  | edge line level ts =>
    cases level with
    | high => exact ⟨_, rfl, hnone⟩
    | low =>
      cases hguard : s.debounceAccepts ts with
      | false => exact ⟨_, exec_edge_low_of_dropped s line hguard, hnone⟩
      | true => exact ⟨_, exec_edge_low_of_accepted line hguard, acceptEdge_noFormatMismatch line ts hnone⟩
  | tick now =>
    exact ⟨_, rfl, finishTick_noFormatMismatch (by rwa [checkTimeout_events]) (checkTimeout_readyAtFullLength now _)⟩

/-- Settles O23: the length check comes first in Decode; a DECODE emits the outcome of one Decode, on the buffer, and no
other command reports FormatMismatch. -/
theorem wrongLengthIsAFormatMismatch : Obligations.WrongLengthIsAFormatMismatch := by
  refine ⟨fun v n w degraded hlength => decodeFrame_of_wrong_length v degraded hlength,
    fun bits w degraded hw hlong => decodeFrame_of_wrong_length _ degraded (by omega), fun i s => ?_⟩
  by_cases hi : i = .decode
  · subst hi
    refine ⟨_, exec_decode_emits s, fun n w hmem => ⟨rfl, fun hfull => ?_⟩⟩
    have hlength : s.cnt.toNat = s.config.expectedWidth.toNat := congrArg BitVec.toNat hfull
    exact decodedWith_ne_formatMismatch s.sr hlength n w (List.mem_singleton.1 hmem).symm
  · obtain ⟨t, hexec, hno⟩ := exec_noFormatMismatch hi s
    exact ⟨t, hexec, fun n w hmem => absurd hmem (hno n w)⟩

end Sys2Proof.Machine
end

section
/-! PROOFS. The transaction TICK (42_frontend_controller.md R106): its whole next state, branch by branch. -/

namespace Sys2Proof.Machine

variable (s : State)

theorem exec_tick_of_full {now : Timestamp} (h : s.timedOut now = true) (hfull : s.cnt = s.config.expectedWidth) :
    exec (.tick now) s = .next { s.clearBuffer with
      result := .absent
      events := [decodedWith s.config s.sr s.cnt.toNat] } := by
  rw [exec, execTick, checkTimeout_of_full s.beginCommand now h hfull, finishTick_frame]
  rfl

theorem exec_tick_of_partial {now : Timestamp} (h : s.timedOut now = true)
    (hpartial : s.cnt ≠ s.config.expectedWidth) :
    exec (.tick now) s = .next { s.clearBuffer with
      result := .absent
      events := [.incomplete s.sr s.cnt.toNat] } := by
  rw [exec, execTick, checkTimeout_of_partial s.beginCommand now h hpartial, finishTick_no_frame]
  rfl

/-- Settles O38: by the timeout test, and by whether the timed-out buffer is full. -/
theorem tickFollowsItsRule : Obligations.TickFollowsItsRule := by
  intro now s
  refine ⟨rfl, .absent, ?_⟩
  have htimed := s.timedOut_iff now
  cases hout : s.timedOut now with
  | false =>
    rw [exec_tick_of_not_timedOut s hout, if_neg (mt htimed.2 (by simp [hout]))]
    rfl
  | true =>
    rw [if_pos (htimed.1 hout)]
    by_cases hfull : s.cnt = s.config.expectedWidth
    · rw [exec_tick_of_full s hout hfull, if_pos hfull]
      rfl
    · rw [exec_tick_of_partial s hout hfull, if_neg hfull]
      rfl

end Sys2Proof.Machine
end

section
/-! PROOFS. The event list of a command (42_frontend_controller.md R103): an accepted edge puts its EV_BIT first, and
whatever follows an append or a timeout check adds only reports, which are no EV_BIT. -/

namespace Sys2Proof.Machine

/-! ### The reports that follow an append or a timeout check -/

/-- What `State.emitIncomplete` adds to the events. -/
def discardReport : Option Snapshot → List Event
  | none => []
  | some p => [.incomplete p.v p.n]

/-- What serving a `frame_ready` signal adds to the events (R105). -/
def serviceReport (c : Configuration) : Option Snapshot → List Event
  | none => []
  | some q => [decodedWith c q.v q.n]

theorem State.emitIncomplete_events (s : State) (p : Option Snapshot) :
    (s.emitIncomplete p).events = s.events ++ discardReport p := by
  cases p with
  | none => exact (List.append_nil _).symm
  | some p => rfl

theorem issueDirectly_events (p : State × Result) :
    (issueDirectly p).events = p.1.events ++ discardReport p.2.incomplete :=
  State.emitIncomplete_events p.1 p.2.incomplete

theorem finishTick_events (p : State × Result) :
    (finishTick p).events =
      p.1.events ++ (discardReport p.2.incomplete ++ serviceReport p.1.config p.2.frameReady) := by
  obtain ⟨u, frameReady, discarded⟩ := p
  cases frameReady with
  | none => rw [finishTick_no_frame, State.emitIncomplete_events, serviceReport, List.append_nil]
  | some q => rw [finishTick_frame, State.emit_events, State.emitIncomplete_events, serviceReport, List.append_assoc]

/-- The append inside an accepted edge (R104), on the state that EV_BIT and the debounce memory are written to. -/
def appendOfEdge (line : Line) (ts : Timestamp) (s : State) : State × Result :=
  appendBit (bitOfLine line) ts ((s.setLastEdge ts).emit (.bit line (bitOfLine line)))

theorem acceptEdge_eq_finishEdge (line : Line) (ts : Timestamp) (s : State) :
    acceptEdge line ts s = finishEdge (appendOfEdge line ts s) := rfl

/-- The EV_BIT of an accepted edge comes before the reports (R107). -/
theorem acceptEdge_events (line : Line) (ts : Timestamp) (s : State) :
    (acceptEdge line ts s).events = s.events ++ .bit line (bitOfLine line) ::
      (discardReport (appendOfEdge line ts s).2.incomplete ++
        serviceReport (appendOfEdge line ts s).1.config (appendOfEdge line ts s).2.frameReady) := by
  rw [acceptEdge_eq_finishEdge, finishEdge_events, finishTick_events, appendOfEdge, appendBit_events,
    State.emit_events, State.setLastEdge_events, List.append_assoc, List.singleton_append]

/-! ### No report is an EV_BIT -/

theorem eventAcceptedBits_decodedWith (c : Configuration) (v : FrameBits) (n : Nat) :
    eventAcceptedBits (decodedWith c v n) = 0 := by
  rw [decodedWith]
  cases decodeFrame v n c.expectedWidth.toNat c.degradedMode with
  | ok f => rfl
  | error cause => rfl

@[simp] theorem acceptedBits_discardReport (p : Option Snapshot) : acceptedBits (discardReport p) = 0 := by
  cases p with
  | none => rfl
  | some p => rfl

@[simp] theorem acceptedBits_serviceReport (c : Configuration) (q : Option Snapshot) :
    acceptedBits (serviceReport c q) = 0 := by
  cases q with
  | none => rfl
  | some q => exact eventAcceptedBits_decodedWith c q.v q.n

theorem acceptedBits_issueDirectly (p : State × Result) :
    acceptedBits (issueDirectly p).events = acceptedBits p.1.events := by
  simp [issueDirectly_events, acceptedBits_append]

theorem acceptedBits_finishTick (p : State × Result) :
    acceptedBits (finishTick p).events = acceptedBits p.1.events := by
  simp [finishTick_events, acceptedBits_append]

theorem acceptedBits_cons (e : Event) (events : List Event) :
    acceptedBits (e :: events) = eventAcceptedBits e + acceptedBits events := rfl

theorem acceptedBits_acceptEdge (line : Line) (ts : Timestamp) (s : State) :
    acceptedBits (acceptEdge line ts s).events = acceptedBits s.events + 1 := by
  simp [acceptEdge_events, acceptedBits_append, acceptedBits_cons, eventAcceptedBits]

/-- A command that is no accepted edge emits no EV_BIT. -/
theorem acceptedBits_exec_of_not_accepted {i : Instr} {s : State}
    (h : ∀ line ts, i = .edge line .low ts → s.debounceAccepts ts = false) :
    ∃ t, exec i s = .next t ∧ acceptedBits t.events = 0 := by
  cases i with
  | append bit now => exact ⟨_, rfl, by rw [acceptedBits_issueDirectly, appendBit_events]; rfl⟩
  | checkTimeout now => exact ⟨_, rfl, by rw [acceptedBits_issueDirectly, checkTimeout_events]; rfl⟩
  | reset => exact ⟨_, rfl, rfl⟩
  | decode => exact ⟨_, exec_decode_emits s, eventAcceptedBits_decodedWith s.config s.sr s.cnt.toNat⟩
  | edge line level ts =>
    cases level with
    | high => exact ⟨_, rfl, rfl⟩
    | low => exact ⟨_, exec_edge_low_of_dropped s line (h line ts rfl), rfl⟩
  | tick now => exact ⟨_, rfl, by rw [acceptedBits_finishTick, checkTimeout_events]; rfl⟩

/-! ### The appended bit, in the buffer and at the end of the frame -/

theorem ofNat_double_add_getLsbD_zero (v : FrameBits) (bit : Bit) :
    (BitVec.ofNat 34 (2 * v.toNat + bit.code.toNat)).getLsbD 0 = bit.code := by
  rw [← shift_eq_double_add]
  cases bit <;> simp [Bit.code]

/-- Both branches of an append put the bit into `SR[0]` (R61). -/
theorem State.TakesBit.sr_getLsbD_zero {s t : State} {bit : Bit} {now : Timestamp} (h : s.TakesBit t bit now) :
    t.sr.getLsbD 0 = bit.code := by
  obtain ⟨-, -, ⟨-, hsr⟩ | ⟨-, hsr⟩⟩ := h
  · rw [hsr, ofNat_double_add_getLsbD_zero]
  · rw [hsr, ← bit_eq_ofNat]
    cases bit <;> rfl

/-- The signal of an append shows the buffer the append left. -/
theorem appendBit_frameReady (bit : Bit) (now : Timestamp) (s : State) :
    (appendBit bit now s).2.frameReady = (appendBit bit now s).1.frameReadySignal := by
  obtain ⟨-, h⟩ | ⟨-, h⟩ := appendBit_cases s bit now
  · rw [h]
  · rw [h]

theorem appendBit_config (bit : Bit) (now : Timestamp) (s : State) : (appendBit bit now s).1.config = s.config := by
  obtain ⟨-, h⟩ | ⟨-, h⟩ := appendBit_cases s bit now
  · rw [h, State.startBuffer_config]
  · rw [h, State.shiftIn_config]

/-- The frame an accepted edge completes is `W` bits long and ends in the edge's bit. -/
theorem appendOfEdge_frameReady_ends_in_bit {line : Line} {ts : Timestamp} {s : State} {q : Snapshot}
    (h : (appendOfEdge line ts s).2.frameReady = some q) :
    q.n = s.config.expectedWidth.toNat ∧ q.v.getLsbD 0 = (bitOfLine line).code := by
  rw [appendOfEdge, appendBit_frameReady, State.frameReadySignal_eq_some_iff, appendBit_config] at h
  obtain ⟨hfull, rfl⟩ := h
  exact ⟨congrArg BitVec.toNat hfull, (appendBit_takesBit _ _ _).sr_getLsbD_zero⟩

theorem binaryString_getLast? (v : FrameBits) {n : Nat} (h : 0 < n) :
    (binaryString v n).getLast? = some (if v.getLsbD 0 then '1' else '0') := by
  have hlast : n - 1 < n := by omega
  rw [List.getLast?_eq_getElem?, binaryString_length, binaryString_getElem? v hlast, Nat.sub_self]

theorem decodeFrame_of_decodedWith_eq_frame {c : Configuration} {v : FrameBits} {n : Nat} {r : String}
    {f : DecodedFrame} (h : decodedWith c v n = .frame r f) :
    decodeFrame v n c.expectedWidth.toNat c.degradedMode = .ok f := by
  rw [decodedWith] at h
  cases hdecode : decodeFrame v n c.expectedWidth.toNat c.degradedMode with
  | ok g =>
    rw [hdecode] at h
    obtain ⟨-, rfl⟩ := Event.frame.inj h
    rfl
  | error cause =>
    rw [hdecode] at h
    cases h

theorem frame_not_mem_discardReport (r : String) (f : DecodedFrame) (p : Option Snapshot) :
    Event.frame r f ∉ discardReport p := by
  cases p with
  | none => nofun
  | some p => simp [discardReport]

/-- A frame that serving a signal reports is the binary string of the signal's snapshot. -/
theorem binaryString_of_frame_mem_serviceReport {c : Configuration} {ready : Option Snapshot} {r : String}
    {f : DecodedFrame} (h : .frame r f ∈ serviceReport c ready) :
    ∃ q, ready = some q ∧ f.binaryString = binaryString q.v q.n := by
  cases ready with
  | none => cases h
  | some q =>
    have hframe := decodeFrame_of_decodedWith_eq_frame (List.mem_singleton.1 h).symm
    obtain ⟨-, rfl⟩ := eq_of_decodeFrame_ok hframe
    exact ⟨q, rfl, rfl⟩

/-- The frame of an accepted edge ends in the edge's bit. -/
theorem acceptEdge_frame_ends_in_bit {line : Line} {ts : Timestamp} {s : State} {r : String} {f : DecodedFrame}
    (hwidth : 0 < s.config.expectedWidth.toNat) (hold : Event.frame r f ∉ s.events)
    (hmem : Event.frame r f ∈ (acceptEdge line ts s).events) :
    f.binaryString.getLast? = some (bitChar (bitOfLine line)) := by
  have hservice : .frame r f ∈
      serviceReport (appendOfEdge line ts s).1.config (appendOfEdge line ts s).2.frameReady := by
    simpa [acceptEdge_events, hold, frame_not_mem_discardReport] using hmem
  obtain ⟨q, hready, hstring⟩ := binaryString_of_frame_mem_serviceReport hservice
  obtain ⟨hlength, hlast⟩ := appendOfEdge_frameReady_ends_in_bit hready
  rw [hstring, binaryString_getLast? q.v (hlength ▸ hwidth), hlast, ← bitChar_ofCode, Bit.ofCode_code]

/-! ### The statement of R103 -/

/-- Settles O34: an accepted edge emits its EV_BIT and then reports only, and its bit is the last of the buffer or of
the frame it completed; no other command emits an EV_BIT. -/
theorem bitEventOncePerAcceptedEdge : Obligations.BitEventOncePerAcceptedEdge := by
  intro i s
  by_cases hedge : ∃ line ts, i = .edge line .low ts ∧ s.debounceAccepts ts = true
  · obtain ⟨line, ts, rfl, haccept⟩ := hedge
    refine ⟨_, exec_edge_low_of_accepted line haccept, ?_, fun hno => ?_⟩
    · rintro _ _ ⟨⟩ -
      refine ⟨acceptedBits_acceptEdge line ts s.beginCommand, bitOfLine line, by simp [acceptEdge_events],
        fun hcnt => ?_, fun hlegal r f hframe => ?_⟩
      · obtain htakes | ⟨-, hempty, -⟩ := acceptEdge_takesBit_or_empty line ts s.beginCommand
        · exact htakes.sr_getLsbD_zero
        · exact absurd hempty hcnt
      · obtain ⟨hwidth, -⟩ := (configLegal_iff s.config).1 hlegal
        rw [acceptEdge_frame_ends_in_bit (s := s.beginCommand) hwidth nofun hframe]
        cases line <;> rfl
    · exact absurd ((hno line ts rfl).symm.trans haccept) Bool.false_ne_true
  · have hnone : ∀ line ts, i = .edge line .low ts → s.debounceAccepts ts = false := by
      simpa using hedge
    obtain ⟨t, hexec, hzero⟩ := acceptedBits_exec_of_not_accepted hnone
    refine ⟨t, hexec, fun line ts hi haccept => ?_, fun _ => hzero⟩
    exact absurd ⟨line, ts, hi, haccept⟩ hedge

end Sys2Proof.Machine
end

section
/-! PROOFS. Errors and diagnostics (60_exceptions.md). The events of any command are its EV_BIT, the report of the
buffer it discards and the report of the frame it serves, in this order; so an error is traced to the buffer that was
discarded or served, and from there to the statements of R122, R123, R125 and R130. -/

namespace Sys2Proof.Machine

/-! ### Which error Decode reports (R81, R89) -/

theorem decodedWith_eq_formatMismatch_iff {c : Configuration} {v : FrameBits} {k n w : Nat} :
    decodedWith c v k = .decodeError (.formatMismatch n w) ↔
      k ≠ c.expectedWidth.toNat ∧ n = k ∧ w = c.expectedWidth.toNat := by
  by_cases hlength : k = c.expectedWidth.toNat
  · exact iff_of_false (decodedWith_ne_formatMismatch v hlength n w) fun ⟨hne, _⟩ => hne hlength
  · rw [decodedWith, decodeFrame_of_wrong_length v _ hlength, outcomeEvent]
    simp [hlength, eq_comm]

theorem decodedWith_eq_unsupportedFormat_iff {c : Configuration} {v : FrameBits} {k w : Nat} :
    decodedWith c v k = .decodeError (.unsupportedFormat w) ↔
      k = c.expectedWidth.toNat ∧ w = c.expectedWidth.toNat ∧ w ≠ 26 ∧ w ≠ 34 ∧ c.degradedMode = false := by
  obtain ⟨hne, hcase⟩ | ⟨hlength, h26, h34, hstrict, hcase⟩ | ⟨hlength, hsupported, hcase⟩ :=
    decodeFrame_cases v k c.expectedWidth.toNat c.degradedMode
  · simp [decodedWith, hcase, outcomeEvent, hne]
  · rw [decodedWith, hcase, outcomeEvent]
    constructor
    · rintro ⟨⟩
      exact ⟨hlength, rfl, h26, h34, hstrict⟩
    · rintro ⟨-, rfl, -⟩
      rfl
  · rw [decodedWith, hcase, outcomeEvent]
    refine ⟨nofun, ?_⟩
    rintro ⟨-, rfl, h26, h34, hstrict⟩
    simp [h26, h34, hstrict] at hsupported

theorem decodedWith_ne_frame_of_unsupported {c : Configuration} (h26 : c.expectedWidth ≠ 26)
    (h34 : c.expectedWidth ≠ 34) (hstrict : c.degradedMode = false) (v : FrameBits) (n : Nat) (r : String)
    (f : DecodedFrame) : decodedWith c v n ≠ .frame r f := by
  intro h
  have hok := decodeFrame_of_decodedWith_eq_frame h
  obtain ⟨rfl, -⟩ := eq_of_decodeFrame_ok hok
  rw [hstrict, decodeFrame_of_unsupported v (by bv_omega) (by bv_omega)] at hok
  cases hok

/-! ### FormatMismatch (R122) -/

/-- Settles O41: DECODE emits the one event of the Decode of the buffer, whose length check is the only source of the
error; no other command reports it. -/
theorem formatMismatchComesOnlyFromDecode : Obligations.FormatMismatchComesOnlyFromDecode := by
  refine ⟨fun _ _ => rfl, fun i s => ?_⟩
  by_cases hi : i = .decode
  · subst hi
    refine ⟨_, exec_decode_emits s, fun n w => ?_, fun _ hpartial => ?_⟩
    · have hlength : s.cnt.toNat ≠ s.config.expectedWidth.toNat ↔ s.cnt ≠ s.config.expectedWidth := by
        rw [Ne, BitVec.toNat_inj]
      simp [eq_comm (a := Event.decodeError _), decodedWith_eq_formatMismatch_iff, hlength]
    · rw [decodedWith_of_partial s.config s.sr hpartial]
      rfl
  · obtain ⟨t, hexec, hno⟩ := exec_noFormatMismatch hi s
    exact ⟨t, hexec, fun n w => ⟨fun hmem => absurd hmem (hno n w), fun ⟨hdecode, _⟩ => absurd hdecode hi⟩,
      fun hdecode => absurd hdecode hi⟩

/-! ### What a command discards and what it serves -/

/-- The snapshot of the buffer, where the test holds. -/
def State.snapshotIf (s : State) (test : Bool) : Option Snapshot := if test then some s.snapshot else none

@[simp] theorem State.snapshotIf_true (s : State) : s.snapshotIf true = some s.snapshot := rfl
@[simp] theorem State.snapshotIf_false (s : State) : s.snapshotIf false = none := rfl

@[simp] theorem State.beginCommand_snapshotIf (s : State) (test : Bool) :
    s.beginCommand.snapshotIf test = s.snapshotIf test := rfl

theorem State.snapshotIf_eq_some_iff {s : State} {test : Bool} {p : Snapshot} :
    s.snapshotIf test = some p ↔ test = true ∧ p = s.snapshot := by
  rw [State.snapshotIf, Option.ite_none_right_eq_some, Option.some_inj, eq_comm (a := p)]

theorem appendBit_incomplete (bit : Bit) (now : Timestamp) (s : State) :
    (appendBit bit now s).2.incomplete = s.snapshotIf s.isFull := by
  cases hfull : s.isFull with
  | false => simp [appendBit, hfull]
  | true => simp [appendBit, hfull]

/-- A timed-out buffer is handed over if it is full and discarded if it is partial (R64). -/
theorem checkTimeout_signals (now : Timestamp) (s : State) :
    (checkTimeout now s).2 =
      ⟨s.snapshotIf (s.timedOut now && s.isFull), s.snapshotIf (s.timedOut now && !s.isFull)⟩ := by
  cases hout : s.timedOut now with
  | false => simp [checkTimeout, hout, Result.absent]
  | true =>
    cases hfull : s.isFull with
    | false => simp [checkTimeout, hout, hfull]
    | true => simp [checkTimeout, hout, hfull]

theorem appendOfEdge_incomplete (line : Line) (ts : Timestamp) (s : State) :
    (appendOfEdge line ts s).2.incomplete = s.snapshotIf s.isFull :=
  appendBit_incomplete (bitOfLine line) ts _

theorem appendOfEdge_config (line : Line) (ts : Timestamp) (s : State) :
    (appendOfEdge line ts s).1.config = s.config :=
  appendBit_config (bitOfLine line) ts _

theorem checkTimeout_config (now : Timestamp) (s : State) : (checkTimeout now s).1.config = s.config := by
  unfold checkTimeout
  split
  · rfl
  · rfl

/-- The buffer a command discards without a decode, by the two causes of R125: an append that finds it full, or a
timeout that finds it partial. -/
def discardedBy : Instr → State → Option Snapshot
  | .append _ _, s => s.snapshotIf s.isFull
  | .checkTimeout now, s => s.snapshotIf (s.timedOut now && !s.isFull)
  | .reset, _ => none
  | .decode, _ => none
  | .edge _ .high _, _ => none
  | .edge _ .low ts, s => s.snapshotIf (s.debounceAccepts ts && s.isFull)
  | .tick now, s => s.snapshotIf (s.timedOut now && !s.isFull)

/-- The snapshot a command hands to Decode (R88, R105). -/
def servedBy : Instr → State → Option Snapshot
  | .append _ _, _ => none
  | .checkTimeout _, _ => none
  | .reset, _ => none
  | .decode, s => some s.snapshot
  | .edge _ .high _, _ => none
  | .edge line .low ts, s =>
    if s.debounceAccepts ts then (appendOfEdge line ts s.beginCommand).2.frameReady else none
  | .tick now, s => s.snapshotIf (s.timedOut now && s.isFull)

/-- The EV_BIT of an accepted edge (R103). -/
def bitReport : Instr → State → List Event
  | .edge line .low ts, s => if s.debounceAccepts ts then [.bit line (bitOfLine line)] else []
  | _, _ => []

/-- Every command completes, and its events are its EV_BIT, then what it discards, then what it serves (R107). -/
theorem exec_events (i : Instr) (s : State) :
    ∃ t, exec i s = .next t ∧
      t.events = bitReport i s ++ (discardReport (discardedBy i s) ++ serviceReport s.config (servedBy i s)) := by
  cases i with
  | append bit now =>
    refine ⟨_, rfl, ?_⟩
    rw [issueDirectly_events, appendBit_events, appendBit_incomplete]
    simp [bitReport, discardedBy, servedBy, serviceReport]
  | checkTimeout now =>
    refine ⟨_, rfl, ?_⟩
    rw [issueDirectly_events, checkTimeout_events, checkTimeout_signals]
    simp [bitReport, discardedBy, servedBy, serviceReport]
  | reset => exact ⟨_, rfl, rfl⟩
  | decode => exact ⟨_, exec_decode_emits s, rfl⟩
  | edge line level ts =>
    cases level with
    | high => exact ⟨_, rfl, rfl⟩
    | low =>
      cases hguard : s.debounceAccepts ts with
      | false =>
        exact ⟨_, exec_edge_low_of_dropped s line hguard, by
          simp [bitReport, discardedBy, servedBy, hguard, discardReport, serviceReport]⟩
      | true =>
        refine ⟨_, exec_edge_low_of_accepted line hguard, ?_⟩
        rw [acceptEdge_events, appendOfEdge_incomplete, appendOfEdge_config]
        simp [bitReport, discardedBy, servedBy, hguard]
  | tick now =>
    refine ⟨_, rfl, ?_⟩
    rw [finishTick_events, checkTimeout_events, checkTimeout_signals, checkTimeout_config]
    simp [bitReport, discardedBy, servedBy]

theorem exec_completes (i : Instr) (s : State) : ∃ t, exec i s = .next t := by
  obtain ⟨t, hexec, -⟩ := exec_events i s
  exact ⟨t, hexec⟩

/-! ### The events of a command, from what it discards and serves -/

theorem eq_bit_of_mem_bitReport {e : Event} {i : Instr} {s : State} (h : e ∈ bitReport i s) :
    ∃ line bit, e = .bit line bit := by
  unfold bitReport at h
  split at h
  · split at h
    · exact ⟨_, _, List.mem_singleton.1 h⟩
    · cases h
  · cases h

theorem mem_discardReport_iff {e : Event} {p : Option Snapshot} :
    e ∈ discardReport p ↔ ∃ q, p = some q ∧ e = .incomplete q.v q.n := by
  cases p with
  | none => simp [discardReport]
  | some q => simp [discardReport]

theorem mem_serviceReport_iff {e : Event} {c : Configuration} {p : Option Snapshot} :
    e ∈ serviceReport c p ↔ ∃ q, p = some q ∧ e = decodedWith c q.v q.n := by
  cases p with
  | none => simp [serviceReport]
  | some q => simp [serviceReport]

theorem decodedWith_ne_incomplete (c : Configuration) (u : FrameBits) (k : Nat) (v : FrameBits) (n : Nat) :
    decodedWith c u k ≠ .incomplete v n := by
  rw [decodedWith]
  cases decodeFrame u k c.expectedWidth.toNat c.degradedMode with
  | ok f => nofun
  | error cause => nofun

theorem incomplete_not_mem_bitReport (v : FrameBits) (n : Nat) (i : Instr) (s : State) :
    Event.incomplete v n ∉ bitReport i s := by
  intro hmem
  obtain ⟨line, bit, h⟩ := eq_bit_of_mem_bitReport hmem
  cases h

theorem incomplete_not_mem_serviceReport (v : FrameBits) (n : Nat) (c : Configuration) (p : Option Snapshot) :
    Event.incomplete v n ∉ serviceReport c p := by
  intro hmem
  obtain ⟨q, -, h⟩ := mem_serviceReport_iff.1 hmem
  exact decodedWith_ne_incomplete c q.v q.n v n h.symm

section Events

variable {i : Instr} {s t : State}

theorem events_of_exec (h : exec i s = .next t) :
    t.events = bitReport i s ++ (discardReport (discardedBy i s) ++ serviceReport s.config (servedBy i s)) := by
  obtain ⟨u, hu, hevents⟩ := exec_events i s
  cases h.symm.trans hu
  exact hevents

/-- EV_INCOMPLETE reports the buffer that was discarded, and nothing else does. -/
theorem incomplete_mem_events_iff (h : exec i s = .next t) {v : FrameBits} {n : Nat} :
    .incomplete v n ∈ t.events ↔ discardedBy i s = some ⟨v, n⟩ := by
  rw [events_of_exec h, List.mem_append, List.mem_append, mem_discardReport_iff]
  constructor
  · rintro (hbit | ⟨q, hq, ⟨⟩⟩ | hservice)
    · exact absurd hbit (incomplete_not_mem_bitReport v n i s)
    · exact hq
    · exact absurd hservice (incomplete_not_mem_serviceReport v n s.config _)
  · exact fun hdiscards => .inr (.inl ⟨_, hdiscards, rfl⟩)

/-- The diagnostic comes once. -/
theorem count_incomplete_events (h : exec i s = .next t) {p : Snapshot} (hdiscards : discardedBy i s = some p) :
    t.events.count (.incomplete p.v p.n) = 1 := by
  rw [events_of_exec h, hdiscards, List.count_append, List.count_append,
    List.count_eq_zero.2 (incomplete_not_mem_bitReport p.v p.n i s),
    List.count_eq_zero.2 (incomplete_not_mem_serviceReport p.v p.n s.config _)]
  simp [discardReport]

/-- An event that is neither EV_BIT nor EV_INCOMPLETE is the outcome of the Decode of what the command serves. -/
theorem outcome_mem_events_iff (h : exec i s = .next t) {e : Event} (hbit : ∀ line bit, e ≠ .bit line bit)
    (hincomplete : ∀ v n, e ≠ .incomplete v n) :
    e ∈ t.events ↔ ∃ q, servedBy i s = some q ∧ decodedWith s.config q.v q.n = e := by
  rw [events_of_exec h, List.mem_append, List.mem_append, mem_discardReport_iff, mem_serviceReport_iff]
  constructor
  · rintro (hreport | ⟨q, -, rfl⟩ | ⟨q, hserves, rfl⟩)
    · obtain ⟨line, bit, rfl⟩ := eq_bit_of_mem_bitReport hreport
      exact absurd rfl (hbit line bit)
    · exact absurd rfl (hincomplete q.v q.n)
    · exact ⟨q, hserves, rfl⟩
  · rintro ⟨q, hserves, rfl⟩
    exact .inr (.inr ⟨q, hserves, rfl⟩)

theorem unsupportedFormat_mem_events_iff (h : exec i s = .next t) {w : Nat} :
    .decodeError (.unsupportedFormat w) ∈ t.events ↔ ∃ q, servedBy i s = some q ∧
      q.n = s.config.expectedWidth.toNat ∧ w = s.config.expectedWidth.toNat ∧ w ≠ 26 ∧ w ≠ 34 ∧
        s.config.degradedMode = false := by
  rw [outcome_mem_events_iff h (by nofun) (by nofun)]
  simp only [decodedWith_eq_unsupportedFormat_iff]

/-! ### What a transaction serves -/

/-- The next bit completes a frame: it is the last missing one, or any bit with `W = 1` (R61, R63). -/
abbrev State.AppendCompletes (s : State) : Prop :=
  s.cnt ≠ s.config.expectedWidth ∧ s.cnt + 1 = s.config.expectedWidth ∨
    s.cnt = s.config.expectedWidth ∧ s.config.expectedWidth = 1

theorem exists_appendBit_frameReady_iff {bit : Bit} {now : Timestamp} :
    (∃ q, (appendBit bit now s).2.frameReady = some q) ↔ s.AppendCompletes := by
  obtain ⟨hfull, h⟩ | ⟨hpartial, h⟩ := appendBit_cases s bit now
  · simp [State.AppendCompletes, h, State.frameReadySignal_eq_some_iff, hfull, eq_comm (a := 1#6)]
  · simp [State.AppendCompletes, h, State.frameReadySignal_eq_some_iff, hpartial]

theorem servedBy_edge_of_accepted {line : Line} {ts : Timestamp} (haccept : s.debounceAccepts ts = true) :
    servedBy (.edge line .low ts) s = (appendOfEdge line ts s.beginCommand).2.frameReady :=
  if_pos haccept

theorem exists_servedBy_edge_iff {line : Line} {ts : Timestamp} (haccept : s.debounceAccepts ts = true) :
    (∃ q, servedBy (.edge line .low ts) s = some q) ↔ s.AppendCompletes := by
  rw [servedBy_edge_of_accepted haccept]
  exact exists_appendBit_frameReady_iff

theorem servedBy_edge_length {line : Line} {ts : Timestamp} {q : Snapshot} (haccept : s.debounceAccepts ts = true)
    (hserves : servedBy (.edge line .low ts) s = some q) : q.n = s.config.expectedWidth.toNat := by
  rw [servedBy_edge_of_accepted haccept] at hserves
  obtain ⟨hlength, -⟩ := appendOfEdge_frameReady_ends_in_bit hserves
  exact hlength

theorem servedBy_tick_eq_some_iff {now : Timestamp} {q : Snapshot} :
    servedBy (.tick now) s = some q ↔ s.timedOut now = true ∧ s.cnt = s.config.expectedWidth ∧ q = s.snapshot := by
  rw [servedBy, State.snapshotIf_eq_some_iff, Bool.and_eq_true, s.isFull_iff, and_assoc]

/-- Besides DECODE only a transaction serves a frame, and it leaves an empty buffer (R104, R106). -/
theorem bufferEmpty_of_servedBy (h : exec i s = .next t) {q : Snapshot} (hserves : servedBy i s = some q)
    (hi : i ≠ .decode) : isTransaction i = true ∧ t.BufferEmpty := by
  cases i with
  | append bit now => cases hserves
  | checkTimeout now => cases hserves
  | reset => cases hserves
  | decode => exact absurd rfl hi
  | edge line level ts =>
    cases level with
    | high => cases hserves
    | low =>
      obtain ⟨haccept, hready⟩ := Option.ite_none_right_eq_some.1 hserves
      cases (exec_edge_low_of_accepted line haccept).symm.trans h
      rw [acceptEdge_eq_finishEdge, finishEdge, hready]
      exact ⟨rfl, rfl, rfl, rfl, rfl⟩
  | tick now =>
    obtain ⟨hout, hfull, -⟩ := servedBy_tick_eq_some_iff.1 hserves
    cases (exec_tick_of_full s hout hfull).symm.trans h
    exact ⟨rfl, rfl, rfl, rfl, rfl⟩

end Events

/-! ### UnsupportedFormat (R123) -/

/-- Settles O42: every frame that is served passes the length check, so with such a configuration Decode answers the
error for it; DECODE serves the buffer, and EDGE and TICK serve a completed one, which they clear. -/
theorem unsupportedFormatReplacesEveryFrame : Obligations.UnsupportedFormatReplacesEveryFrame := by
  refine ⟨fun _ => rfl, fun i s => ?_⟩
  obtain ⟨t, hexec⟩ := exec_completes i s
  refine ⟨t, hexec, fun w hmem => ?_, fun h26 h34 hstrict => ?_⟩
  · obtain ⟨q, hserves, -, hwidth, hnot26, hnot34, hstrict⟩ := (unsupportedFormat_mem_events_iff hexec).1 hmem
    refine ⟨hwidth, hnot26, hnot34, hstrict, ?_, bufferEmpty_of_servedBy hexec hserves⟩
    rintro rfl
    cases (exec_decode_emits s).symm.trans hexec
    rw [List.mem_singleton.1 hmem]
    rfl
  · have hraise : ∀ q, servedBy i s = some q → q.n = s.config.expectedWidth.toNat →
        .decodeError (.unsupportedFormat s.config.expectedWidth.toNat) ∈ t.events := fun q hserves hlength =>
      (unsupportedFormat_mem_events_iff hexec).2
        ⟨q, hserves, hlength, rfl, by bv_omega, by bv_omega, hstrict⟩
    refine ⟨fun r f hmem => ?_, ?_, ?_, ?_⟩
    · obtain ⟨q, -, hframe⟩ := (outcome_mem_events_iff hexec (by nofun) (by nofun)).1 hmem
      exact decodedWith_ne_frame_of_unsupported h26 h34 hstrict q.v q.n r f hframe
    · rintro rfl hfull
      exact hraise _ rfl (congrArg BitVec.toNat hfull)
    · rintro line ts rfl haccept hcompletes
      obtain ⟨q, hserves⟩ := (exists_servedBy_edge_iff haccept).2 hcompletes
      exact hraise q hserves (servedBy_edge_length haccept hserves)
    · rintro now rfl hout hfull
      exact hraise _ (servedBy_tick_eq_some_iff.2 ⟨hout, hfull, rfl⟩) (congrArg BitVec.toNat hfull)

/-! ### EV_INCOMPLETE (R125) -/

/-- The two causes of R125. -/
theorem discardedBy_eq_some_iff {i : Instr} {s : State} {p : Snapshot} :
    discardedBy i s = some p ↔ p = s.snapshot ∧
      ((s.cnt = s.config.expectedWidth ∧
          ((∃ bit now, i = .append bit now) ∨
            ∃ line ts, i = .edge line .low ts ∧ s.debounceAccepts ts = true)) ∨
        (s.cnt ≠ s.config.expectedWidth ∧
          ∃ now, (i = .checkTimeout now ∨ i = .tick now) ∧ s.timedOut now = true)) := by
  cases i with
  | append bit now => simp [discardedBy, State.snapshotIf_eq_some_iff, s.isFull_iff, and_comm]
  | checkTimeout now => simp [discardedBy, State.snapshotIf_eq_some_iff, s.isFull_eq_false_iff, and_comm]
  | reset => simp [discardedBy]
  | decode => simp [discardedBy]
  | edge line level ts =>
    cases level with
    | high => simp [discardedBy]
    | low => simp [discardedBy, State.snapshotIf_eq_some_iff, s.isFull_iff, and_comm]
  | tick now => simp [discardedBy, State.snapshotIf_eq_some_iff, s.isFull_eq_false_iff, and_comm]

/-- A good buffer that is discarded holds 1 to `W` bits. -/
theorem State.Inv.snapshot_n_bounds {i : Instr} {s : State} (hinv : s.Inv) {p : Snapshot}
    (hdiscards : discardedBy i s = some p) : 1 ≤ p.n ∧ p.n ≤ s.config.expectedWidth.toNat := by
  have hpos := hinv.width_pos
  obtain ⟨-, ⟨hle, -⟩, -⟩ := hinv
  obtain ⟨rfl, ⟨hfull, -⟩ | ⟨-, now, -, hout⟩⟩ := discardedBy_eq_some_iff.1 hdiscards
  · rw [State.snapshot_n, hfull]
    exact ⟨hpos, le_rfl⟩
  · obtain ⟨hcnt, -⟩ := (s.timedOut_iff now).1 hout
    exact ⟨by rw [State.snapshot_n]; bv_omega, hle⟩

/-- What an overrun leaves: one bit, taken at the command's time (R63). -/
theorem appendBit_buffer_of_full {s : State} (bit : Bit) (now : Timestamp) (hfull : s.cnt = s.config.expectedWidth) :
    (appendBit bit now s).1.cnt = 1 ∧ (appendBit bit now s).1.lu = now ∧ (appendBit bit now s).1.luValid = true := by
  rw [appendBit_of_full s bit now hfull]
  exact ⟨rfl, rfl, rfl⟩

/-- What is left after a discard: an empty buffer, or on overrun the new bit. -/
theorem buffer_after_discard {i : Instr} {s t : State} (h : exec i s = .next t) {p : Snapshot}
    (hdiscards : discardedBy i s = some p) :
    t.BufferEmpty ∨
      (s.cnt = s.config.expectedWidth ∧ t.cnt = 1 ∧
        ∃ now, commandTime i = some now ∧ t.lu = now ∧ t.luValid = true) := by
  obtain ⟨-, ⟨hfull, ⟨bit, now, rfl⟩ | ⟨line, ts, rfl, haccept⟩⟩ | ⟨hpartial, now, rfl | rfl, hout⟩⟩ :=
    discardedBy_eq_some_iff.1 hdiscards
  · cases (exec_append_of_full s bit now hfull).symm.trans h
    exact .inr ⟨hfull, rfl, now, rfl, rfl, rfl⟩
  · cases (exec_edge_low_of_accepted line haccept).symm.trans h
    obtain hsame | hempty := finishEdge_sameBuffer_or_empty (appendOfEdge line ts s.beginCommand)
    · obtain ⟨-, hcnt, hlu, hvalid⟩ := hsame
      obtain ⟨hone, hnow, hset⟩ := appendBit_buffer_of_full
        (s := (s.beginCommand.setLastEdge ts).emit (.bit line (bitOfLine line))) (bitOfLine line) ts hfull
      exact .inr ⟨hfull, hcnt.trans hone, ts, rfl, hlu.trans hnow, hvalid.trans hset⟩
    · exact .inl hempty
  · cases (exec_checkTimeout_of_partial s hout hpartial).symm.trans h
    exact .inl ⟨rfl, rfl, rfl, rfl⟩
  · cases (exec_tick_of_partial s hout hpartial).symm.trans h
    exact .inl ⟨rfl, rfl, rfl, rfl⟩

/-- Settles O43: EV_INCOMPLETE is emitted exactly for the discarded buffer, which holds 1 to `W` bits. -/
theorem incompleteFrameHasTwoCauses : Obligations.IncompleteFrameHasTwoCauses := by
  intro i s hinv
  obtain ⟨t, hexec⟩ := exec_completes i s
  refine ⟨t, hexec, fun v n => ?_, fun v n hmem => ?_⟩
  · rw [incomplete_mem_events_iff hexec, discardedBy_eq_some_iff, ← and_assoc]
    simp [State.snapshot]
  · have hdiscards := (incomplete_mem_events_iff hexec).1 hmem
    obtain ⟨hpos, hle⟩ := hinv.snapshot_n_bounds hdiscards
    exact ⟨hpos, hle, count_incomplete_events hexec hdiscards, buffer_after_discard hexec hdiscards⟩

/-! ### The hardware after an error (R130) -/

/-- A command discards one frame and serves another only as an EDGE with `W = 1`. -/
theorem edge_of_discarded_and_served {i : Instr} {s : State} {p q : Snapshot} (hdiscards : discardedBy i s = some p)
    (hserves : servedBy i s = some q) : s.config.expectedWidth = 1 ∧ ∃ line ts, i = .edge line .low ts := by
  obtain ⟨-, ⟨hfull, ⟨bit, now, rfl⟩ | ⟨line, ts, rfl, haccept⟩⟩ | ⟨hpartial, now, rfl | rfl, -⟩⟩ :=
    discardedBy_eq_some_iff.1 hdiscards
  · cases hserves
  · obtain ⟨hnot, -⟩ | ⟨-, hone⟩ := (exists_servedBy_edge_iff haccept).1 ⟨q, hserves⟩
    · exact absurd hfull hnot
    · exact ⟨hone, line, ts, rfl⟩
  · cases hserves
  · obtain ⟨-, hfull, -⟩ := servedBy_tick_eq_some_iff.1 hserves
    exact absurd hfull hpartial

/-- Settles O44: from the statements of R122, R123 and R125 about the same command; EV_INCOMPLETE and EV_FRAME together
need a discarded and a served frame. -/
theorem afterAnErrorTheHardwareIsReady : Obligations.AfterAnErrorTheHardwareIsReady := by
  rintro i s -
  obtain ⟨t, hexec⟩ := exec_completes i s
  refine ⟨t, hexec, fun j => exec_completes j t, fun v n hmem => ?_, fun n w hmem => ?_, fun w hmem htrans => ?_,
    fun v n r f hincomplete hframe => ?_⟩
  · have hdiscards := (incomplete_mem_events_iff hexec).1 hmem
    exact (buffer_after_discard hexec hdiscards).imp_right fun ⟨hfull, hone, _⟩ => ⟨hfull, hone⟩
  · obtain ⟨-, hmismatch⟩ := formatMismatchComesOnlyFromDecode
    obtain ⟨u, hu, hcause, hstate⟩ := hmismatch i s
    cases hexec.symm.trans hu
    obtain ⟨hi, hpartial, -⟩ := (hcause n w).1 hmem
    rw [hstate hi hpartial]
  · obtain ⟨q, hserves, -⟩ := (unsupportedFormat_mem_events_iff hexec).1 hmem
    obtain ⟨-, hempty⟩ := bufferEmpty_of_servedBy hexec hserves (by rintro rfl; cases htrans)
    exact hempty
  · have hdiscards := (incomplete_mem_events_iff hexec).1 hincomplete
    obtain ⟨q, hserves, -⟩ := (outcome_mem_events_iff hexec (by nofun) (by nofun)).1 hframe
    exact edge_of_discarded_and_served hdiscards hserves

end Sys2Proof.Machine
end

section
/-! PROOFS. Reset and hazards (70_reset_and_hazards.md): a command always completes (R148), and a direct APPEND, unlike
EDGE, does not pass the debounce guard (R146). -/

namespace Sys2Proof.Machine

/-- Settles O13: the lemma on the events of a command already exhibits its next state. -/
theorem everyCommandCompletesInOneStep : Obligations.EveryCommandCompletesInOneStep := exec_completes

/-- Settles O49: which branch of APPEND is taken depends on the count and the width only, and neither branch reads or
writes the debounce memory and its interval; the guard drops an EDGE at the same time. -/
theorem appendBypassesTheGuard : Obligations.AppendBypassesTheGuard := by
  intro bit line now s le leValid interval
  have hdropped : s.leValid = true → now.toNat < s.le.toNat + s.config.debounceInterval.toNat →
      ∃ u, exec (.edge line .low now) s = .next u ∧ u.events = [] ∧ s.SameBuffer u := by
    intro hvalid hearly
    have hguard := (s.debounceAccepts_eq_false_iff now).2 ⟨hvalid, hearly⟩
    exact ⟨_, exec_edge_low_of_dropped s line hguard, rfl, rfl, rfl, rfl, rfl⟩
  by_cases hfull : s.cnt = s.config.expectedWidth
  · exact ⟨_, exec_append_of_full s bit now hfull, rfl, rfl, exec_append_of_full _ bit now hfull, hdropped⟩
  · exact ⟨_, exec_append_of_not_full s bit now hfull, rfl, rfl, exec_append_of_not_full _ bit now hfull, hdropped⟩

end Sys2Proof.Machine
end

section
/-! PROOFS. The command word (30_encoding.md section 2): what the decoder answers for each command number, which words
are canonical, and from these the statements about the encoder and the decoder. -/

namespace Sys2Proof

/-! ### What the decoder answers (R40, R42, R48) -/

section DecoderEquations

variable {w : CommandWord}

theorem decodeWord_of_op_append (h : (cmdOp w).toNat = 0) :
    decodeWord w = .ok (.append (Bit.ofCode (cmdA w)) (cmdTs w)) := by
  simp [decodeWord, h]

theorem decodeWord_of_op_checkTimeout (h : (cmdOp w).toNat = 1) : decodeWord w = .ok (.checkTimeout (cmdTs w)) := by
  simp [decodeWord, h]

theorem decodeWord_of_op_reset (h : (cmdOp w).toNat = 2) : decodeWord w = .ok .reset := by
  simp [decodeWord, h]

theorem decodeWord_of_op_decode (h : (cmdOp w).toNat = 3) : decodeWord w = .ok .decode := by
  simp [decodeWord, h]

theorem decodeWord_of_op_edge (h : (cmdOp w).toNat = 4) :
    decodeWord w = .ok (.edge (Line.ofCode (cmdA w)) (Level.ofCode (cmdB w)) (cmdTs w)) := by
  simp [decodeWord, h]

theorem decodeWord_of_op_tick (h : (cmdOp w).toNat = 5) : decodeWord w = .ok (.tick (cmdTs w)) := by
  simp [decodeWord, h]

theorem decodeWord_of_op_reserved (h : 6 ≤ (cmdOp w).toNat) :
    decodeWord w = .error (.reservedCommand (cmdOp w)) := by
  unfold decodeWord
  split
  case h_7 => rfl
  all_goals omega

/-- The ten reserved numbers apart, a command number is one of six. -/
theorem cmdOp_cases (w : CommandWord) :
    (cmdOp w).toNat = 0 ∨ (cmdOp w).toNat = 1 ∨ (cmdOp w).toNat = 2 ∨ (cmdOp w).toNat = 3 ∨ (cmdOp w).toNat = 4 ∨
      (cmdOp w).toNat = 5 ∨ 6 ≤ (cmdOp w).toNat := by
  omega

theorem cmdOp_eq {k : Nat} (h : (cmdOp w).toNat = k) : cmdOp w = BitVec.ofNat 4 k := by
  rw [← h, BitVec.ofNat_toNat, BitVec.setWidth_eq]

end DecoderEquations

/-- The command number that an answer of the decoder tells. -/
def answeredOp : Except DecodeError Instr → BitVec 4
  | .ok i => i.opcode
  | .error (.reservedCommand op) => op

/-- Whatever the decoder answers, it tells the word's `op`. -/
theorem answeredOp_decodeWord (w : CommandWord) : answeredOp (decodeWord w) = cmdOp w := by
  apply BitVec.eq_of_toNat_eq
  obtain h | h | h | h | h | h | h := cmdOp_cases w
  · rw [decodeWord_of_op_append h, h]; rfl
  · rw [decodeWord_of_op_checkTimeout h, h]; rfl
  · rw [decodeWord_of_op_reset h, h]; rfl
  · rw [decodeWord_of_op_decode h, h]; rfl
  · rw [decodeWord_of_op_edge h, h]; rfl
  · rw [decodeWord_of_op_tick h, h]; rfl
  · rw [decodeWord_of_op_reserved h]; rfl

theorem opcode_of_decodeWord_ok {w : CommandWord} {i : Instr} (h : decodeWord w = .ok i) : i.opcode = cmdOp w := by
  rw [← answeredOp_decodeWord w, h, answeredOp]

theorem opcode_toNat_lt (i : Instr) : i.opcode.toNat < 6 := by
  cases i <;> simp [Instr.opcode]

/-- A word is a command exactly when its number is below 6. -/
theorem exists_decodeWord_ok_iff {w : CommandWord} : (∃ i, decodeWord w = .ok i) ↔ (cmdOp w).toNat < 6 := by
  refine ⟨fun ⟨i, h⟩ => opcode_of_decodeWord_ok h ▸ opcode_toNat_lt i, fun hlt => ?_⟩
  obtain h | h | h | h | h | h | h := cmdOp_cases w
  · exact ⟨_, decodeWord_of_op_append h⟩
  · exact ⟨_, decodeWord_of_op_checkTimeout h⟩
  · exact ⟨_, decodeWord_of_op_reset h⟩
  · exact ⟨_, decodeWord_of_op_decode h⟩
  · exact ⟨_, decodeWord_of_op_edge h⟩
  · exact ⟨_, decodeWord_of_op_tick h⟩
  · exact absurd hlt (not_lt.2 h)

theorem exists_decodeWord_error_iff {w : CommandWord} : (∃ e, decodeWord w = .error e) ↔ 6 ≤ (cmdOp w).toNat := by
  rw [← not_lt, ← exists_decodeWord_ok_iff]
  cases decodeWord w with
  | ok i => simp
  | error e => simp

/-! ### The encoder and the decoder -/

/-- Settles O1: the fields of a packed word are those it was packed from, and the codes of the operands are inverse
to each other. -/
theorem encodedCommandDecodesToItself : Obligations.EncodedCommandDecodesToItself := by
  intro i
  cases i with
  | append bit now => rw [decodeWord_of_op_append] <;> simp [encode, Instr.opcode]
  | checkTimeout now => rw [decodeWord_of_op_checkTimeout] <;> simp [encode, Instr.opcode]
  | reset => rw [decodeWord_of_op_reset]; simp [encode, Instr.opcode]
  | decode => rw [decodeWord_of_op_decode]; simp [encode, Instr.opcode]
  | edge line level ts => rw [decodeWord_of_op_edge] <;> simp [encode, Instr.opcode]
  | tick now => rw [decodeWord_of_op_tick] <;> simp [encode, Instr.opcode]

/-- The canonical words in terms of the fields (R41): `rsv` is 0; `b` is used by EDGE, `a` by EDGE and APPEND, and `ts`
by all commands but RESET and DECODE. -/
theorem canonical_iff (w : CommandWord) :
    CommandWord.canonical w = true ↔
      (cmdOp w).toNat < 6 ∧ cmdRsv w = 0 ∧ ((cmdOp w).toNat ≠ 4 → cmdB w = false) ∧
        ((cmdOp w).toNat ≠ 0 → (cmdOp w).toNat ≠ 4 → cmdA w = false) ∧
        ((cmdOp w).toNat = 2 ∨ (cmdOp w).toNat = 3 → cmdTs w = 0) := by
  have hop : w.extractLsb' 68 4 = cmdOp w := rfl
  have hrsv : w.extractLsb' 66 2 = cmdRsv w := rfl
  have ha : w.getLsbD 65 = cmdA w := rfl
  have hb : w.getLsbD 64 = cmdB w := rfl
  have hts : w.extractLsb' 0 64 = cmdTs w := rfl
  rw [CommandWord.canonical, CommandWord.wf, hop, hrsv, ha, hb, hts]
  obtain h | h | h | h | h | h | h := cmdOp_cases w
  · simp [h]
  · simp [h, and_comm]
  · simp [h]
    tauto
  · simp [h]
    tauto
  · simp [h]
  · simp [h, and_comm]
  · have hnot := not_lt.2 h
    simp [hnot]

/-- Settles O2: an encoding is packed with its unused fields 0; and a canonical word is packed from its fields, of which
the encoder writes those that the decoder reads, and 0 for the others. -/
theorem canonicalWordsAreTheEncodings : Obligations.CanonicalWordsAreTheEncodings := by
  refine ⟨fun i => ?_, fun w hcanonical => ?_⟩
  · rw [canonical_iff]
    cases i <;> simp [encode, Instr.opcode]
  · obtain ⟨hlt, hrsv, hb, ha, hts⟩ := (canonical_iff w).1 hcanonical
    have hword := word_eq_packCommand w hrsv
    obtain h | h | h | h | h | h | h := cmdOp_cases w
    · refine ⟨_, decodeWord_of_op_append h, ?_⟩
      rw [hb (by omega), cmdOp_eq h] at hword
      simp [encode, Instr.opcode, ← hword]
    · refine ⟨_, decodeWord_of_op_checkTimeout h, ?_⟩
      rw [hb (by omega), ha (by omega) (by omega), cmdOp_eq h] at hword
      exact hword.symm
    · refine ⟨_, decodeWord_of_op_reset h, ?_⟩
      rw [hb (by omega), ha (by omega) (by omega), hts (by omega), cmdOp_eq h] at hword
      exact hword.symm
    · refine ⟨_, decodeWord_of_op_decode h, ?_⟩
      rw [hb (by omega), ha (by omega) (by omega), hts (by omega), cmdOp_eq h] at hword
      exact hword.symm
    · refine ⟨_, decodeWord_of_op_edge h, ?_⟩
      rw [cmdOp_eq h] at hword
      simp [encode, Instr.opcode, ← hword]
    · refine ⟨_, decodeWord_of_op_tick h, ?_⟩
      rw [hb (by omega), ha (by omega) (by omega), cmdOp_eq h] at hword
      exact hword.symm
    · exact absurd hlt (not_lt.2 h)

/-! ### The fields a command uses (R42) -/

theorem Bit.ofCode_inj {c c' : Bool} : Bit.ofCode c = Bit.ofCode c' ↔ c = c' :=
  Function.LeftInverse.injective Bit.code_ofCode |>.eq_iff

theorem Line.ofCode_inj {c c' : Bool} : Line.ofCode c = Line.ofCode c' ↔ c = c' :=
  Function.LeftInverse.injective Line.code_ofCode |>.eq_iff

theorem Level.ofCode_inj {c c' : Bool} : Level.ofCode c = Level.ofCode c' ↔ c = c' :=
  Function.LeftInverse.injective Level.code_ofCode |>.eq_iff

/-- Settles O3: the answers to two words tell their command numbers; for one number, they differ only in the fields
that its command uses. -/
theorem decodingReadsOpAndUsedFieldsOnly : Obligations.DecodingReadsOpAndUsedFieldsOnly := by
  intro w w'
  by_cases hop : cmdOp w = cmdOp w'
  · obtain h | h | h | h | h | h | h := cmdOp_cases w
    · have h' := hop ▸ h
      simp [decodeWord_of_op_append h, decodeWord_of_op_append h', hop, h', Bit.ofCode_inj]
    · have h' := hop ▸ h
      simp [decodeWord_of_op_checkTimeout h, decodeWord_of_op_checkTimeout h', hop, h']
    · have h' := hop ▸ h
      simp [decodeWord_of_op_reset h, decodeWord_of_op_reset h', hop, h']
    · have h' := hop ▸ h
      simp [decodeWord_of_op_decode h, decodeWord_of_op_decode h', hop, h']
    · have h' := hop ▸ h
      simp [decodeWord_of_op_edge h, decodeWord_of_op_edge h', hop, h', Line.ofCode_inj, Level.ofCode_inj]
    · have h' := hop ▸ h
      simp [decodeWord_of_op_tick h, decodeWord_of_op_tick h', hop, h']
    · have h' := hop ▸ h
      simp [decodeWord_of_op_reserved h, decodeWord_of_op_reserved h', hop]
      omega
  · refine iff_of_false (fun h => hop ?_) fun ⟨h, _⟩ => hop h
    rw [← answeredOp_decodeWord w, h, answeredOp_decodeWord]

/-! ### The match under the mask -/

theorem opMask_eq_packCommand : 0xF#72 <<< 68 = packCommand (BitVec.allOnes 4) false false 0 := rfl

/-- The mask keeps `op` and clears the other fields. -/
theorem and_opMask (w : CommandWord) : w &&& (0xF#72 <<< 68) = packCommand (cmdOp w) false false 0 := by
  apply BitVec.eq_of_getLsbD_eq
  intro i hi
  rw [opMask_eq_packCommand, BitVec.getLsbD_and, packCommand_getLsbD, packCommand_getLsbD]
  by_cases hlow : i < 68
  · simp [hlow]
  · have hwidth : i - 68 < 4 := by omega
    have hindex : 68 + (i - 68) = i := by omega
    have h64 : ¬ i < 64 := by omega
    have h65 : i ≠ 64 ∧ i ≠ 65 := by omega
    have hmask : (BitVec.allOnes 4).getLsbD (i - 68) = true := by rw [BitVec.getLsbD_allOnes, decide_eq_true hwidth]
    simp only [hlow, h64, h65, if_false, hmask]
    simp [cmdOp, hwidth, hindex]

/-- `k << 68` is the command number alone. -/
theorem packCommand_op_alone (op : BitVec 4) : packCommand op false false 0 = op.setWidth 72 <<< 68 := by
  simp [packCommand]

theorem packCommand_op_alone_inj {op op' : BitVec 4} :
    packCommand op false false 0 = packCommand op' false false 0 ↔ op = op' := by
  refine ⟨fun h => ?_, fun h => by rw [h]⟩
  rw [← cmdOp_packCommand op false false 0, h, cmdOp_packCommand]

/-- Settles O4: both sides of the match are words with a command number alone, so they are equal when
the numbers are. -/
theorem matchUnderMaskSelectsTheCommand : Obligations.MatchUnderMaskSelectsTheCommand := by
  intro w k hk
  have hshift : BitVec.ofNat 72 k <<< 68 = packCommand (BitVec.ofNat 4 k) false false 0 := by
    rw [packCommand_op_alone, BitVec.setWidth_ofNat_of_le_of_lt (by omega) (by omega)]
  have hop : cmdOp w = BitVec.ofNat 4 k ↔ (cmdOp w).toNat = k := by
    rw [← BitVec.toNat_inj, BitVec.toNat_ofNat, Nat.mod_eq_of_lt (by omega)]
  rw [and_opMask, hshift, packCommand_op_alone_inj, hop]
  refine ⟨fun h => ?_, fun ⟨i, hdecode, hcode⟩ => opcode_of_decodeWord_ok hdecode ▸ hcode⟩
  obtain ⟨i, hdecode⟩ := exists_decodeWord_ok_iff.2 (h ▸ hk)
  exact ⟨i, hdecode, by rw [opcode_of_decodeWord_ok hdecode, h]⟩

/-! ### Words written in the spec -/

/-- Settles O6: the decoder run on each word. -/
theorem writtenWordsDecodeAsTheSpecSays : Obligations.WrittenWordsDecodeAsTheSpecSays :=
  ⟨rfl, rfl, rfl, rfl, rfl, rfl, rfl, rfl, rfl⟩

/-! ### The BITS line (section 6) -/

/-- The times of a BITS line: element `k` is at `t0 + k * d`. -/
theorem timed_getElem? (bits : List Bit) (t0 d k : Nat) :
    (timed bits t0 d)[k]? = bits[k]?.map fun b => (b, t0 + k * d) := by
  induction bits generalizing t0 k with
  | nil => rfl
  | cons b bits ih =>
    cases k with
    | zero => simp [timed]
    | succ k =>
      have htime : t0 + d + k * d = t0 + (k + 1) * d := by rw [Nat.succ_mul]; omega
      rw [timed, List.getElem?_cons_succ, List.getElem?_cons_succ, ih, htime]

theorem timed_length (bits : List Bit) (t0 d : Nat) : (timed bits t0 d).length = bits.length := by
  induction bits generalizing t0 with
  | nil => rfl
  | cons b bits ih => rw [timed, List.length_cons, List.length_cons, ih]

theorem pulse_eq_edge (b : Bit) (t : Nat) :
    pulse b t = .edge (if b = .zero then .data0 else .data1) .low (BitVec.ofNat 64 t) := by
  cases b <;> rfl

/-- Settles O8: element by element of the timed sequence. -/
theorem bitsLineExpandsToTimedPulses : Obligations.BitsLineExpandsToTimedPulses := by
  refine fun string t0 d => ⟨by rw [AsmLine.expand, List.length_map, timed_length], fun k b hk => ?_⟩
  rw [AsmLine.expand, List.getElem?_map, timed_getElem?, hk, Option.map_some, Option.map_some, pulse_eq_edge]

end Sys2Proof
end

section
/-! PROOFS. The step (00_scope.md R8, 20_memory.md): it refuses an illegal configuration or a reserved word, does
nothing without a command, and otherwise runs the decoded command, which changes neither the configuration nor the
trace. -/

namespace Sys2Proof.Machine

/-! ### The step, case by case -/

section Step

variable {s : State}

theorem step_of_illegal (hillegal : configLegal s.config = false) :
    step s = .refused (.illegalConfiguration s.config.expectedWidth) := by
  simp [step, fetch, hillegal]

theorem step_of_idle (hlegal : configLegal s.config = true) (htrace : s.trace = []) :
    step s = .next s.beginCommand := by
  simp [step, fetch, hlegal, htrace]

section Presented

variable {w : CommandWord} {rest : List CommandWord}
  (hlegal : configLegal s.config = true) (htrace : s.trace = w :: rest)
include hlegal htrace

theorem step_of_command {i : Instr} (hdecode : decodeWord w = .ok i) : step s = exec i { s with trace := rest } := by
  simp [step, fetch, hlegal, htrace, hdecode]

theorem step_of_reserved (hop : 6 ≤ (cmdOp w).toNat) : step s = .refused (.reservedCommand (cmdOp w)) := by
  simp [step, fetch, hlegal, htrace, decodeWord_of_op_reserved hop, refusalOf]

end Presented

end Step

/-- Settles O9: the decoded command is run. -/
theorem stepRunsTheDecodedCommand : Obligations.StepRunsTheDecodedCommand :=
  fun _ _ _ _ hlegal htrace hdecode => step_of_command hlegal htrace hdecode

/-- Settles O10: the outputs are emptied, the model's choice of log 4. -/
theorem stepWithoutACommandChangesNothing : Obligations.StepWithoutACommandChangesNothing :=
  fun _ hlegal htrace => step_of_idle hlegal htrace

/-- Settles O11: a width outside 1..34 is no legal configuration. -/
theorem illegalWidthIsRefused : Obligations.IllegalWidthIsRefused := by
  intro s hwidth
  refine step_of_illegal ?_
  rw [← Bool.not_eq_true, configLegal_iff]
  omega

/-- Settles O5: the decoder answers an error exactly for the reserved numbers, and the step refuses such a word. -/
theorem reservedCommandNumbersAreRefused : Obligations.ReservedCommandNumbersAreRefused :=
  ⟨fun _ => exists_decodeWord_error_iff.symm, fun _ _ _ hlegal htrace hop => step_of_reserved hlegal htrace hop⟩

/-- Settles O12: an illegal width and a reserved word are refused; the idle step and every command complete. -/
theorem stepCompletesExactlyOnCommands : Obligations.StepCompletesExactlyOnCommands := by
  refine ⟨fun s => ?_, fun _ f => nomatch f⟩
  rw [← and_assoc, ← configLegal_iff]
  cases hlegal : configLegal s.config with
  | false => simp [step_of_illegal hlegal]
  | true =>
    cases htrace : s.trace with
    | nil => simp [step_of_idle hlegal htrace]
    | cons w rest =>
      have hcommand : (∃ t, step s = .next t) ↔ (cmdOp w).toNat < 6 := by
        constructor
        · rintro ⟨t, ht⟩
          by_contra hop
          cases (step_of_reserved hlegal htrace (not_lt.1 hop)).symm.trans ht
        · intro hop
          obtain ⟨i, hdecode⟩ := exists_decodeWord_ok_iff.2 hop
          rw [step_of_command hlegal htrace hdecode]
          exact exec_completes i _
      rw [hcommand]
      simp

/-! ### What every command leaves alone -/

/-- `t` has the configuration and the trace of `s`. -/
abbrev State.SameSetting (s t : State) : Prop := t.config = s.config ∧ t.trace = s.trace

theorem appendBit_sameSetting (bit : Bit) (now : Timestamp) (s : State) : s.SameSetting (appendBit bit now s).1 := by
  obtain ⟨-, h⟩ | ⟨-, h⟩ := appendBit_cases s bit now
  · rw [h]; exact ⟨rfl, rfl⟩
  · rw [h]; exact ⟨rfl, rfl⟩

theorem checkTimeout_sameSetting (now : Timestamp) (s : State) : s.SameSetting (checkTimeout now s).1 := by
  unfold checkTimeout
  split
  · exact ⟨rfl, rfl⟩
  · exact ⟨rfl, rfl⟩

theorem issueDirectly_sameSetting (p : State × Result) : p.1.SameSetting (issueDirectly p) := by
  simp [State.SameSetting, issueDirectly]

theorem finishTick_sameSetting (p : State × Result) : p.1.SameSetting (finishTick p) := by
  obtain ⟨u, frameReady, discarded⟩ := p
  cases frameReady with
  | none => simp [State.SameSetting, finishTick_no_frame]
  | some q => simp [State.SameSetting, finishTick_frame]

theorem finishEdge_sameSetting (p : State × Result) : p.1.SameSetting (finishEdge p) := by
  obtain ⟨u, frameReady, discarded⟩ := p
  cases frameReady with
  | none => simp [State.SameSetting, finishEdge_no_frame]
  | some q => simp [State.SameSetting, finishEdge_frame]

theorem State.SameSetting.trans {s t u : State} (hst : s.SameSetting t) (htu : t.SameSetting u) : s.SameSetting u :=
  ⟨htu.1.trans hst.1, htu.2.trans hst.2⟩

theorem acceptEdge_sameSetting (line : Line) (ts : Timestamp) (s : State) : s.SameSetting (acceptEdge line ts s) := by
  have happend := appendBit_sameSetting (bitOfLine line) ts ((s.setLastEdge ts).emit (.bit line (bitOfLine line)))
  exact happend.trans (finishEdge_sameSetting _)

/-- No command writes the configuration or the trace. -/
theorem exec_sameSetting {i : Instr} {s t : State} (h : exec i s = .next t) : s.SameSetting t := by
  cases i with
  | append bit now =>
    cases h
    exact (appendBit_sameSetting bit now s.beginCommand).trans (issueDirectly_sameSetting _)
  | checkTimeout now =>
    cases h
    exact (checkTimeout_sameSetting now s.beginCommand).trans (issueDirectly_sameSetting _)
  | reset => cases h; exact ⟨rfl, rfl⟩
  | decode => cases (exec_decode_emits s).symm.trans h; exact ⟨rfl, rfl⟩
  | edge line level ts =>
    cases level with
    | high => cases h; exact ⟨rfl, rfl⟩
    | low =>
      cases hguard : s.debounceAccepts ts with
      | false => cases (exec_edge_low_of_dropped s line hguard).symm.trans h; exact ⟨rfl, rfl⟩
      | true =>
        cases (exec_edge_low_of_accepted line hguard).symm.trans h
        exact acceptEdge_sameSetting line ts s.beginCommand
  | tick now =>
    cases h
    exact (checkTimeout_sameSetting now s.beginCommand).trans (finishTick_sameSetting _)

/-- Everything a step that completes has done: nothing, or one command on the state with its word taken off. -/
theorem step_next_cases {s t : State} (h : step s = .next t) :
    (s.trace = [] ∧ t = s.beginCommand) ∨
      ∃ w rest i, s.trace = w :: rest ∧ decodeWord w = .ok i ∧ exec i { s with trace := rest } = .next t := by
  obtain ⟨-, hstep⟩ | ⟨-, htrace, hstep⟩ | ⟨w, rest, -, htrace, ⟨i, hdecode, hstep⟩ | ⟨op, -, hstep⟩⟩ := step_cases s
  · cases hstep.symm.trans h
  · cases hstep.symm.trans h
    exact .inl ⟨htrace, rfl⟩
  · exact .inr ⟨w, rest, i, htrace, hdecode, hstep.symm.trans h⟩
  · cases hstep.symm.trans h

/-- Settles O14: the step takes the word off the trace, and its command changes neither. -/
theorem configurationNeverChanges : Obligations.ConfigurationNeverChanges := by
  intro s t h
  obtain ⟨htrace, rfl⟩ | ⟨w, rest, i, htrace, -, hexec⟩ := step_next_cases h
  · exact ⟨rfl, by rw [State.beginCommand_trace, htrace, List.tail_nil]⟩
  · obtain ⟨hconfig, hrest⟩ := exec_sameSetting hexec
    exact ⟨hconfig, by rw [hrest, htrace, List.tail_cons]⟩

end Sys2Proof.Machine
end

section
/-! PROOFS. Hexadecimal digits (30_encoding.md R41, 41_frame_decoder.md R83): the digits of a bit vector, one digit at a
time, and from these the 18 digits of a command word and the `hex_string` of a frame. -/

namespace Sys2Proof

/-! ### The digits of any bit vector -/

section Digits

variable {n : Nat} (v : BitVec n)

theorem hexDigits_length (digits : Nat) : (hexDigits digits v).length = digits := by
  simp [hexDigits]

/-- Digit `j` from the left is the nibble at its place (R83). -/
theorem hexDigits_getElem? {digits j : Nat} (h : j < digits) :
    (hexDigits digits v)[j]? = some (hexDigit (v.extractLsb' (4 * (digits - 1 - j)) 4)) := by
  simp [hexDigits, h]

/-- The last digit is the low nibble; those before it are the digits of `v >> 4`. -/
theorem hexDigits_succ (digits : Nat) :
    hexDigits (digits + 1) v = hexDigits digits (v >>> 4) ++ [hexDigit (v.extractLsb' 0 4)] := by
  have hearlier : ∀ j ∈ List.range digits, hexDigit (v.extractLsb' (4 * (digits - j)) 4) =
      hexDigit ((v >>> 4).extractLsb' (4 * (digits - 1 - j)) 4) := by
    intro j hj
    have hj : j < digits := List.mem_range.1 hj
    have hindex : 4 * (digits - j) = 4 + 4 * (digits - 1 - j) := by omega
    congr 1
    ext i hi
    simp [BitVec.getElem_extractLsb', hindex, Nat.add_assoc]
  simpa [hexDigits, List.range_succ] using hearlier

/-- The digits read in base 16 are the low bits that they show. -/
theorem parseBase_hexDigits (digits : Nat) (v : BitVec n) :
    parseBase 16 (hexDigits digits v) = some (v.toNat % 16 ^ digits) := by
  induction digits generalizing v with
  | zero => simp [hexDigits, parseBase_nil, Nat.mod_one]
  | succ digits ih =>
    have hnibble : (v.extractLsb' 0 4).toNat < 16 := (v.extractLsb' 0 4).isLt
    have hpow : 16 ^ (digits + 1) = 2 ^ 4 * 16 ^ digits := Nat.pow_succ'
    have hvalue : 16 * ((v >>> 4).toNat % 16 ^ digits) + (v.extractLsb' 0 4).toNat = v.toNat % 16 ^ (digits + 1) := by
      rw [BitVec.extractLsb'_toNat, BitVec.toNat_ushiftRight, Nat.shiftRight_zero, Nat.shiftRight_eq_div_pow,
        hpow, Nat.mod_mul, Nat.add_comm]
      rfl
    rw [hexDigits_succ, parseBase_append_one 16 _ _ _ _ (ih (v >>> 4)) (digitValue_hexDigit _) hnibble, hvalue]

/-- The last digits are those of the low bits. -/
theorem drop_hexDigits {digits k : Nat} (hk : k ≤ digits) :
    (hexDigits digits v).drop (digits - k) = hexDigits k (v.extractLsb' 0 (4 * k)) := by
  apply List.ext_getElem?
  intro j
  by_cases hj : j < k
  · have hindex : digits - 1 - (digits - k + j) = k - 1 - j := by omega
    rw [List.getElem?_drop, hexDigits_getElem? v (by omega), hexDigits_getElem? _ hj, hindex]
    congr 2
    ext i hi
    have hbit : 4 * (k - 1 - j) + i < 4 * k := by omega
    simp [BitVec.getElem_extractLsb', hbit]
  · rw [List.getElem?_eq_none, List.getElem?_eq_none]
    · rw [hexDigits_length]; omega
    · rw [List.length_drop, hexDigits_length]; omega

end Digits

/-! ### The 18 digits of a command word (R41) -/

theorem wordOfHex_hexOfWord (w : CommandWord) : wordOfHex (hexOfWord w) = some w := by
  have hfits : w.toNat < 16 ^ 18 := w.isLt
  rw [wordOfHex, hexOfWord, if_pos (hexDigits_length w 18), parseBase_hexDigits, Nat.mod_eq_of_lt hfits,
    Option.map_some, BitVec.ofNat_toNat, BitVec.setWidth_eq]

/-- The second digit is made of `rsv`, `a` and `b`. -/
theorem second_nibble_toNat (w : CommandWord) :
    (w.extractLsb' 64 4).toNat = 4 * (cmdRsv w).toNat + 2 * (cmdA w).toNat + (cmdB w).toNat := by
  rw [cmdRsv, cmdA, cmdB, BitVec.getLsbD, BitVec.getLsbD, Nat.toNat_testBit, Nat.toNat_testBit,
    BitVec.extractLsb'_toNat, BitVec.extractLsb'_toNat, Nat.shiftRight_eq_div_pow, Nat.shiftRight_eq_div_pow]
  omega

/-- Settles O7: the digits read in base 16 are the word; the first is the nibble `op`, the second the nibble below it,
and the last sixteen those of `ts`. -/
theorem hexadecimalFormOfAWordReadsBack : Obligations.HexadecimalFormOfAWordReadsBack :=
  fun w => ⟨hexDigits_length w 18, wordOfHex_hexOfWord w, hexDigits_getElem? w (by decide),
    ⟨_, hexDigits_getElem? w (by decide), second_nibble_toNat w⟩, drop_hexDigits (digits := 18) (k := 16) w (by decide)⟩

namespace Machine

/-! ### The strings of a frame -/

/-- Four bits per digit are enough for `w` bits. -/
theorem lt_pow_hexDigitCount {k w : Nat} (h : k < 2 ^ w) : k < 16 ^ hexDigitCount w := by
  have hpow : 16 ^ hexDigitCount w = 2 ^ (4 * hexDigitCount w) := by rw [Nat.pow_mul]
  rw [hpow]
  exact h.trans_le (Nat.pow_le_pow_right (by decide) (by unfold hexDigitCount; omega))

/-- The hex string of a register that holds nothing above its `w` bits reads the register. -/
theorem parseBase_hexString {v : FrameBits} {w : Nat} (h : v.toNat < 2 ^ w) :
    parseBase 16 (hexString v w) = some v.toNat := by
  rw [hexString, parseBase_hexDigits, Nat.mod_eq_of_lt (lt_pow_hexDigitCount h)]

/-- Decode succeeds on the expected length when the format is supported or the mode is degraded (R89). -/
theorem decodeFrame_of_decodable (v : FrameBits) {w : Nat} {degraded : Bool} (h : w = 26 ∨ w = 34 ∨ degraded = true) :
    decodeFrame v w w degraded =
      .ok ⟨binaryString v w, hexString v w, frameField v w .facilityCode, frameField v w .cardNumber, w⟩ := by
  obtain ⟨hne, -⟩ | ⟨-, h26, h34, hstrict, -⟩ | ⟨-, -, hok⟩ := decodeFrame_cases v w w degraded
  · exact absurd rfl hne
  · simp [h26, h34, hstrict] at h
  · exact hok

/-- Settles O30: both strings of the frame read the value of the sequence, which fits its `W` bits. -/
theorem hexAndBinaryStringsParseToTheSameValue : Obligations.HexAndBinaryStringsParseToTheSameValue := by
  rintro bits w degraded rfl - hle hdecodable
  have hvalue := bitsValue_toNat bits hle
  have hfits : (BitVec.ofNat 34 (bitsValue bits)).toNat < 2 ^ bits.length := by
    rw [hvalue]
    exact bitsValue_lt bits
  refine ⟨_, decodeFrame_of_decodable _ hdecodable, ?_, ?_⟩
  · rw [parseBase_hexString hfits, hvalue]
  · rw [parseBase_binaryString hfits, hvalue]

theorem hexDigit_eq_getElem? (nibble : BitVec 4) : some (hexDigit nibble) = hexAlphabet[nibble.toNat]? := by
  revert nibble; decide

/-- A digit of value 0 to 3. -/
theorem hexDigit_mem_of_lt_four {nibble : BitVec 4} (h : nibble.toNat < 4) :
    hexDigit nibble ∈ ['0', '1', '2', '3'] := by
  revert nibble; decide

theorem hexString_getElem? (v : FrameBits) {w j : Nat} (h : j < hexDigitCount w) :
    (hexString v w)[j]? = some (hexDigit (v.extractLsb' (4 * (hexDigitCount w - 1 - j)) 4)) :=
  hexDigits_getElem? v h

/-- Of the two bits that the leading digit shows for `W` = 26 and 34, each is in the frame (D15). -/
theorem leading_digit_of_supported {v : FrameBits} {w : Nat} (h : w = 26 ∨ w = 34) (hfits : v.toNat < 2 ^ w) :
    ∃ c rest, hexString v w = c :: rest ∧ c ∈ ['0', '1', '2', '3'] := by
  have hdigits : 0 < hexDigitCount w := by unfold hexDigitCount; omega
  have hnibble : (v.extractLsb' (4 * (hexDigitCount w - 1 - 0)) 4).toNat < 4 := by
    rw [BitVec.extractLsb'_toNat, Nat.shiftRight_eq_div_pow, hexDigitCount]
    obtain rfl | rfl := h
    · omega
    · omega
  have hhead := hexString_getElem? v hdigits
  obtain ⟨c, rest, hstring⟩ : ∃ c rest, hexString v w = c :: rest :=
    List.exists_cons_of_length_pos (by rw [hexString_length]; exact hdigits)
  rw [hstring, List.getElem?_cons_zero, Option.some_inj] at hhead
  exact ⟨c, rest, hstring, hhead ▸ hexDigit_mem_of_lt_four hnibble⟩

/-- Settles O25: the frame's hex string shows the nibbles from the left, each by its character in the alphabet. -/
theorem hexStringIsPaddedAndMostSignificantFirst : Obligations.HexStringIsPaddedAndMostSignificantFirst := by
  intro v w degraded f _ _ hfits hdecode
  obtain ⟨-, rfl⟩ := eq_of_decodeFrame_ok hdecode
  refine ⟨hexString_length v w, fun j hj => ?_, fun h => leading_digit_of_supported h hfits⟩
  rw [hexString_getElem? v hj, hexDigit_eq_getElem?, BitVec.extractLsb'_toNat]
  rfl

/-! ### Widths without a layout, and the fields put together -/

theorem frameField_of_unsupported (v : FrameBits) {w : Nat} (h26 : w ≠ 26) (h34 : w ≠ 34) (name : FieldName) :
    frameField v w name = none := by
  simp [frameField, frameLayout, h26, h34]

/-- Settles O29: in degraded mode Decode succeeds with a layout that has no field; otherwise the format check fails,
after the length check. -/
theorem unsupportedWidthFollowsDegradedMode : Obligations.UnsupportedWidthFollowsDegradedMode := by
  intro v w h26 h34
  exact ⟨⟨_, decodeFrame_of_decodable v (.inr (.inr rfl)), frameField_of_unsupported v h26 h34 _,
    frameField_of_unsupported v h26 h34 _, rfl, binaryString_length v w, hexString_length v w⟩,
    decodeFrame_of_unsupported v h26 h34, fun n hlength => decodeFrame_of_wrong_length v false hlength⟩

/-- The fields of a supported format are quotients and remainders of the frame value; what they leave out are the two
bits at the ends. -/
theorem frame_eq_sum_of_fields {v : FrameBits} {w : Nat} (h : w = 26 ∨ w = 34) (hfits : v.toNat < 2 ^ w) :
    v.toNat = (v.getLsbD (w - 1)).toNat * 2 ^ (w - 1) + ((v.toNat >>> (w - 9)) &&& (2 ^ 8 - 1)) * 2 ^ (w - 9) +
      ((v.toNat >>> 1) &&& (2 ^ (w - 10) - 1)) * 2 + (v.getLsbD 0).toNat := by
  rw [Nat.and_two_pow_sub_one_eq_mod, Nat.and_two_pow_sub_one_eq_mod, Nat.shiftRight_eq_div_pow,
    Nat.shiftRight_eq_div_pow, BitVec.getLsbD, BitVec.getLsbD, Nat.toNat_testBit, Nat.toNat_testBit]
  obtain rfl | rfl := h
  · omega
  · omega

/-- What the reassembly says of a supported format, in terms of the width. -/
theorem decodeFrame_fields_reassemble {v : FrameBits} {w : Nat} (h : w = 26 ∨ w = 34) (degraded : Bool)
    (hfits : v.toNat < 2 ^ w) :
    ∃ f fc cn, decodeFrame v w w degraded = .ok f ∧ f.facilityCode = some fc ∧ f.cardNumber = some cn ∧
      v.toNat = (v.getLsbD (w - 1)).toNat * 2 ^ (w - 1) + fc * 2 ^ (w - 9) + cn * 2 + (v.getLsbD 0).toNat :=
  ⟨_, _, _, decodeFrame_of_supported v degraded h, frameField_facilityCode_of_supported h v,
    frameField_cardNumber_of_supported h v, frame_eq_sum_of_fields h hfits⟩

/-- Settles O31: by the fields of a supported format, at each of the two widths. -/
theorem fieldsReassembleTheFrame : Obligations.FieldsReassembleTheFrame :=
  fun v degraded => ⟨decodeFrame_fields_reassemble (.inl rfl) degraded,
    decodeFrame_fields_reassemble (.inr rfl) degraded v.isLt⟩

end Machine

end Sys2Proof
end

section
/-! PROOFS. The buffer as a sequence (10_state.md section 2) and what APPEND, RESET and power-on do to it. -/

namespace Sys2Proof.Machine

/-- Settles O15: the two branches of APPEND, the shift written as doubling. -/
theorem appendFollowsItsRule : Obligations.AppendFollowsItsRule := by
  refine fun bit now s => ⟨fun hfull => ?_, fun hpartial => ?_⟩
  · rw [exec_append_of_full s bit now hfull, State.frameReadySignal_eq, State.startBuffer, bit_eq_ofNat]
    simp [eq_comm]
  · rw [exec_append_of_not_full s bit now hpartial, State.frameReadySignal_eq, State.shiftIn, shift_eq_double_add]

/-! ### The sequence a buffer holds -/

theorem State.BufferInv.bitsValue_eq {s : State} (h : s.BufferInv) :
    bitsValue (bitsOf s.sr s.cnt.toNat) = s.sr.toNat := by
  obtain ⟨-, hfits, -⟩ := h
  rw [bitsValue_bitsOf, Nat.mod_eq_of_lt hfits]

/-- The value of a good buffer with room for one more bit, doubled, fits the register. -/
theorem State.Inv.double_add_lt {s : State} (hinv : s.Inv) (hpartial : s.cnt ≠ s.config.expectedWidth) (bit : Bit) :
    2 * s.sr.toNat + bit.code.toNat < 2 ^ (s.cnt.toNat + 1) ∧ 2 ^ (s.cnt.toNat + 1) ≤ 2 ^ 34 := by
  obtain ⟨hlegal, hbuffer, -⟩ := hinv
  obtain ⟨hle, hfits, -⟩ := hbuffer
  obtain ⟨-, hwidth⟩ := (configLegal_iff s.config).1 hlegal
  have hroom : s.cnt.toNat + 1 ≤ 34 := by bv_omega
  have hbit := Bool.toNat_lt bit.code
  exact ⟨by rw [Nat.pow_succ]; omega, Nat.pow_le_pow_right (by decide) hroom⟩

/-- The count of a good buffer that is not full goes up by one. -/
theorem State.BufferInv.cnt_succ_toNat {s : State} (h : s.BufferInv) (hpartial : s.cnt ≠ s.config.expectedWidth) :
    (s.cnt + 1).toNat = s.cnt.toNat + 1 := by
  obtain ⟨hle, -⟩ := h
  bv_omega

/-- Settles O16: the last bit of the doubled register is the new one, and those before it are the old sequence. -/
theorem appendAddsTheBitAtTheEndOfTheSequence : Obligations.AppendAddsTheBitAtTheEndOfTheSequence := by
  refine ⟨fun s ⟨_, hbuffer, _⟩ => hbuffer.bitsValue_eq, fun bit now s hinv hpartial => ?_⟩
  refine ⟨_, exec_append_of_not_full s bit now hpartial, ?_⟩
  obtain ⟨hlt, hle⟩ := hinv.double_add_lt hpartial bit
  obtain ⟨-, hbuffer, -⟩ := hinv
  have hearlier : BitVec.ofNat 34 (2 * s.sr.toNat + bit.code.toNat) >>> 1 = s.sr := by
    apply BitVec.eq_of_toNat_eq
    have hbit := Bool.toNat_lt bit.code
    rw [BitVec.toNat_ushiftRight, BitVec.toNat_ofNat, Nat.mod_eq_of_lt (hlt.trans_le hle), Nat.shiftRight_one]
    omega
  change bitsOf ((s.sr <<< 1) ||| (BitVec.ofBool bit.code).setWidth 34) (s.cnt + 1).toNat = _
  rw [hbuffer.cnt_succ_toNat hpartial, shift_eq_double_add, bitsOf_succ, hearlier, ofNat_double_add_getLsbD_zero,
    Bit.ofCode_code]

/-- A good state with no bits has the empty buffer. -/
theorem State.Inv.bufferEmpty {s : State} (hinv : s.Inv) (hcnt : s.cnt = 0) : s.BufferEmpty := by
  obtain ⟨-, ⟨-, hfits, hvalid, hcleared⟩, -⟩ := hinv
  have hinvalid : s.luValid = false := by simp [hvalid, hcnt]
  have hsr : s.sr.toNat < 1 := by simpa [hcnt] using hfits
  exact ⟨by bv_omega, hcnt, hcleared hinvalid, hinvalid⟩

/-- Settles O21: RESET leaves fixed values in all that it writes; and the invariant leaves no other empty buffer. -/
theorem resetIsIdempotentAndTheEmptyBufferUnique : Obligations.ResetIsIdempotentAndTheEmptyBufferUnique :=
  ⟨fun s => ⟨_, exec_reset s, exec_reset _, rfl, rfl, rfl, rfl⟩, fun _ hinv hcnt => hinv.bufferEmpty hcnt⟩

/-! ### The debounce memory after an edge -/

/-- An accepted edge writes the debounce memory (R101). -/
theorem finishEdge_debounce (p : State × Result) :
    (finishEdge p).le = p.1.le ∧ (finishEdge p).leValid = p.1.leValid := by
  obtain ⟨u, frameReady, discarded⟩ := p
  cases frameReady with
  | none => simp [finishEdge_no_frame]
  | some q => simp [finishEdge_frame]

theorem appendBit_debounce (bit : Bit) (now : Timestamp) (s : State) :
    (appendBit bit now s).1.le = s.le ∧ (appendBit bit now s).1.leValid = s.leValid := by
  obtain ⟨-, h⟩ | ⟨-, h⟩ := appendBit_cases s bit now
  · rw [h]; exact ⟨rfl, rfl⟩
  · rw [h]; exact ⟨rfl, rfl⟩

theorem acceptEdge_debounce (line : Line) (ts : Timestamp) (s : State) :
    (acceptEdge line ts s).le = ts ∧ (acceptEdge line ts s).leValid = true := by
  obtain ⟨hle, hvalid⟩ := finishEdge_debounce (appendOfEdge line ts s)
  obtain ⟨hle', hvalid'⟩ := appendBit_debounce (bitOfLine line) ts
    ((s.setLastEdge ts).emit (.bit line (bitOfLine line)))
  exact ⟨hle.trans hle', hvalid.trans hvalid'⟩

/-! ### Power-on -/

/-- Settles O52: the registers are 0 by definition; the debounce memory is invalid, so the guard accepts any edge. -/
theorem powerOnClearsEveryRegister : Obligations.PowerOnClearsEveryRegister := by
  refine ⟨fun c => ⟨⟨rfl, rfl, rfl, rfl⟩, rfl, rfl, rfl, fun line ts => ?_⟩, rfl, rfl⟩
  have haccept : (State.powerOn c).debounceAccepts ts = true := rfl
  exact ⟨_, exec_edge_low_of_accepted line haccept, acceptEdge_debounce line ts _⟩

theorem powerOn_inv {c : Configuration} (h : configLegal c = true) : (State.powerOn c).Inv :=
  ⟨h, ⟨Nat.zero_le _, Nat.one_pos, rfl, fun _ => rfl⟩, fun _ => rfl⟩

/-- Settles O53: an empty buffer and an invalid debounce memory of 0. -/
theorem powerOnStateMeetsTheInvariant : Obligations.PowerOnStateMeetsTheInvariant :=
  ⟨fun _ hlegal => powerOn_inv hlegal, powerOn_inv rfl⟩

end Sys2Proof.Machine
end

section
/-! PROOFS. The transaction EDGE (42_frontend_controller.md R104): the whole next state of an accepted edge, branch by
branch, and what a decode outcome and a tick leave behind. -/

namespace Sys2Proof.Machine

/-- The state inside an accepted edge, before its append: the debounce memory written and EV_BIT emitted. -/
def edgeNoted (line : Line) (ts : Timestamp) (s : State) : State :=
  (s.beginCommand.setLastEdge ts).emit (.bit line (bitOfLine line))

section EdgeBranches

variable {line : Line} {ts : Timestamp} {s : State} (haccept : s.debounceAccepts ts = true)
include haccept

theorem exec_edge_eq_finishEdge :
    exec (.edge line .low ts) s = .next (finishEdge (appendBit (bitOfLine line) ts (edgeNoted line ts s))) :=
  exec_edge_low_of_accepted line haccept

/-- The bit finds room and does not fill the buffer. -/
theorem exec_edge_of_room (hpartial : s.cnt ≠ s.config.expectedWidth) (hroom : s.cnt + 1 ≠ s.config.expectedWidth) :
    exec (.edge line .low ts) s = .next { s.shiftIn (bitOfLine line) ts with
      le := ts
      leValid := true
      result := .absent
      events := [.bit line (bitOfLine line)] } := by
  rw [exec_edge_eq_finishEdge haccept, appendBit_of_not_full (edgeNoted line ts s) _ _ hpartial,
    State.frameReadySignal_of_not_full _ hroom, finishEdge_no_frame]
  rfl

/-- The bit completes a frame. -/
theorem exec_edge_of_completing (hpartial : s.cnt ≠ s.config.expectedWidth)
    (hlast : s.cnt + 1 = s.config.expectedWidth) :
    exec (.edge line .low ts) s = .next { s.clearBuffer with
      le := ts
      leValid := true
      result := .absent
      events := [.bit line (bitOfLine line),
        decodedWith s.config (s.shiftIn (bitOfLine line) ts).sr s.config.expectedWidth.toNat] } := by
  rw [exec_edge_eq_finishEdge haccept, appendBit_of_not_full (edgeNoted line ts s) _ _ hpartial,
    State.frameReadySignal_of_full _ hlast, finishEdge_frame, ← hlast]
  rfl

/-- The bit replaces a full buffer. -/
theorem exec_edge_of_overrun (hfull : s.cnt = s.config.expectedWidth) (hwidth : s.config.expectedWidth ≠ 1) :
    exec (.edge line .low ts) s = .next { s.startBuffer (bitOfLine line) ts with
      le := ts
      leValid := true
      result := .absent
      events := [.bit line (bitOfLine line), .incomplete s.sr s.cnt.toNat] } := by
  rw [exec_edge_eq_finishEdge haccept, appendBit_of_full (edgeNoted line ts s) _ _ hfull,
    State.frameReadySignal_of_not_full _ hwidth.symm, finishEdge_no_frame]
  rfl

/-- The bit replaces a full buffer of one bit, and is a frame of its own. -/
theorem exec_edge_of_overrun_completing (hfull : s.cnt = s.config.expectedWidth) (hwidth : s.config.expectedWidth = 1) :
    exec (.edge line .low ts) s = .next { s.clearBuffer with
      le := ts
      leValid := true
      result := .absent
      events := [.bit line (bitOfLine line), .incomplete s.sr s.cnt.toNat,
        decodedWith s.config (s.startBuffer (bitOfLine line) ts).sr 1] } := by
  rw [exec_edge_eq_finishEdge haccept, appendBit_of_full (edgeNoted line ts s) _ _ hfull,
    State.frameReadySignal_of_full _ hwidth.symm, finishEdge_frame]
  rfl

end EdgeBranches

/-- The value of a line's bit. -/
theorem bitOfLine_code_toNat (line : Line) : (bitOfLine line).code.toNat = if line = .data0 then 0 else 1 := by
  cases line <;> rfl

/-- Settles O35: the branch with room, the shift written as doubling. -/
theorem edgeAppendsItsBit : Obligations.EdgeAppendsItsBit := by
  intro line ts s hguard hpartial hroom
  rw [exec_edge_of_room ((s.debounceAccepts_iff ts).2 hguard) hpartial hroom, State.shiftIn, shift_eq_double_add,
    bitOfLine_code_toNat, bitOfLine_eq]
  rfl

/-- Settles O36: the completing branch, the shift written as doubling. -/
theorem completingEdgeDecodesAndClears : Obligations.CompletingEdgeDecodesAndClears := by
  intro line ts s hguard hpartial hlast
  rw [exec_edge_of_completing ((s.debounceAccepts_iff ts).2 hguard) hpartial hlast, State.shiftIn_sr,
    shift_eq_double_add, bitOfLine_code_toNat, bitOfLine_eq]
  rfl

theorem bit_setWidth_bitOfLine (line : Line) :
    (BitVec.ofBool (bitOfLine line).code).setWidth 34 = if line = .data0 then 0 else 1 := by
  cases line <;> rfl

/-- Settles O37: the two overrun branches. -/
theorem edgeOnAFullBufferOverruns : Obligations.EdgeOnAFullBufferOverruns := by
  intro line ts s hguard hfull
  have haccept := (s.debounceAccepts_iff ts).2 hguard
  refine ⟨fun hwidth => ?_, fun hwidth => ?_⟩
  · rw [exec_edge_of_overrun haccept hfull hwidth, State.startBuffer, bit_setWidth_bitOfLine, bitOfLine_eq]
    rfl
  · rw [exec_edge_of_overrun_completing haccept hfull hwidth, State.startBuffer_sr, bit_setWidth_bitOfLine,
      bitOfLine_eq]
    rfl

end Sys2Proof.Machine
end

section
/-! PROOFS. Commands after one another, and who touches what (20_memory.md section 5, 60_exceptions.md,
70_reset_and_hazards.md section 3). -/

namespace Sys2Proof.Machine

/-! ### Codes and causes (60_exceptions.md) -/

/-- Settles O46: each code and level is that of the event's constructor. -/
theorem eventAndCauseCodes : Obligations.EventAndCauseCodes := by
  refine ⟨fun e => ?_, fun _ _ => rfl, fun _ _ => rfl, fun _ _ => ⟨rfl, rfl, rfl⟩, fun _ => ⟨rfl, rfl⟩, fun _ _ => rfl,
    fun _ => rfl, fun _ _ => rfl, rfl⟩
  cases e with
  | bit line bit => simp [eventCode, eventLevel]
  | frame r f => simp [eventCode, eventLevel]
  | incomplete v n => simp [eventCode, eventLevel]
  | decodeError c => simp [eventCode, eventLevel]

theorem eventCause_decodedWith_ne_sourceInitFailure (c : Configuration) (v : FrameBits) (n : Nat) :
    eventCause (decodedWith c v n) ≠ some .sourceInitFailure := by
  rw [decodedWith]
  obtain ⟨-, h⟩ | ⟨-, -, -, -, h⟩ | ⟨-, -, h⟩ := decodeFrame_cases v n c.expectedWidth.toNat c.degradedMode
  · rw [h]; nofun
  · rw [h]; nofun
  · rw [h]; nofun

/-- Settles O45: an event is an EV_BIT, an EV_INCOMPLETE or the outcome of a Decode, and none has that cause; with no
command the step of a legal power-on state is idle, and there are no outputs to empty. -/
theorem sourceInitFailureIsNeverRaised : Obligations.SourceInitFailureIsNeverRaised := by
  refine ⟨fun i s => ?_, fun c hpos hle => step_of_idle ((configLegal_iff c).2 ⟨hpos, hle⟩) rfl⟩
  obtain ⟨t, hexec, hevents⟩ := exec_events i s
  refine ⟨t, hexec, fun e hmem => ?_⟩
  rw [hevents, List.mem_append, List.mem_append, mem_discardReport_iff, mem_serviceReport_iff] at hmem
  obtain hbit | ⟨p, -, rfl⟩ | ⟨q, -, rfl⟩ := hmem
  · obtain ⟨line, bit, rfl⟩ := eq_bit_of_mem_bitReport hbit
    nofun
  · nofun
  · exact eventCause_decodedWith_ne_sourceInitFailure _ _ _

/-! ### An empty buffer, ticked and decoded -/

section EmptyBuffer

variable {s : State} (hcnt : s.cnt = 0)
include hcnt

theorem exec_tick_of_empty (now : Timestamp) : exec (.tick now) s = .next s.beginCommand :=
  exec_tick_of_not_timedOut s ((s.timedOut_eq_false_iff now).2 (.inl hcnt))

/-- A DECODE with no bits finds no frame, since no legal width is 0. -/
theorem exec_decode_of_empty (hpos : 1 ≤ s.config.expectedWidth.toNat) : ∃ u, exec .decode s = .next u ∧
    u.events = [.decodeError (.formatMismatch 0 s.config.expectedWidth.toNat)] := by
  have hpartial : s.cnt ≠ s.config.expectedWidth := by bv_omega
  have hzero : s.cnt.toNat = 0 := congrArg BitVec.toNat hcnt
  refine ⟨_, exec_decode_emits s, ?_⟩
  rw [decodedWith_of_partial s.config s.sr hpartial, hzero]
  rfl

end EmptyBuffer

/-- An outcome that a transaction emits is of a frame that it served, so that its buffer is left empty (R36). -/
theorem bufferEmpty_of_outcome {i : Instr} {s t : State} (hexec : exec i s = .next t) (hi : isTransaction i = true)
    {e : Event} (hbit : ∀ line bit, e ≠ .bit line bit) (hincomplete : ∀ v n, e ≠ .incomplete v n)
    (hmem : e ∈ t.events) :
    t.BufferEmpty := by
  obtain ⟨q, hserves, -⟩ := (outcome_mem_events_iff hexec hbit hincomplete).1 hmem
  obtain ⟨-, hempty⟩ := bufferEmpty_of_servedBy hexec hserves (by rintro rfl; cases hi)
  exact hempty

/-- Settles O40: the outcome leaves an empty buffer, on which a TICK does nothing and a DECODE finds no frame. -/
theorem decodeDecisionIsTakenOnce : Obligations.DecodeDecisionIsTakenOnce := by
  intro i s hinv hi
  obtain ⟨t, hexec⟩ := exec_completes i s
  refine ⟨t, hexec, fun houtcome => ?_⟩
  have hempty : t.BufferEmpty := by
    obtain ⟨r, f, hmem⟩ | ⟨c, hmem⟩ := houtcome
    · exact bufferEmpty_of_outcome hexec hi (by nofun) (by nofun) hmem
    · exact bufferEmpty_of_outcome hexec hi (by nofun) (by nofun) hmem
  have ⟨_, hcnt, _⟩ := hempty
  obtain ⟨hconfig, -⟩ := exec_sameSetting hexec
  refine ⟨hempty, fun now => ⟨_, exec_tick_of_empty hcnt now, rfl⟩, ?_⟩
  rw [← hconfig]
  exact exec_decode_of_empty hcnt (hconfig ▸ hinv.width_pos)

/-! ### What follows a frame_ready (70_reset_and_hazards.md section 3) -/

theorem exec_decode_of_full {s : State} (hfull : s.cnt = s.config.expectedWidth) : ∃ u, exec .decode s = .next u ∧
    u.events = [decodedWith s.config s.sr s.config.expectedWidth.toNat] :=
  ⟨_, exec_decode_emits s, by rw [hfull]; rfl⟩

theorem exec_append_of_full_events {s : State} (hfull : s.cnt = s.config.expectedWidth) (bit : Bit) (now : Timestamp) :
    ∃ u, exec (.append bit now) s = .next u ∧ u.events = [.incomplete s.sr s.config.expectedWidth.toNat] :=
  ⟨_, exec_append_of_full s bit now hfull, by rw [hfull]⟩

/-- The signal of a direct APPEND shows the full buffer that the APPEND left. -/
theorem exec_append_frameReady {bit : Bit} {now : Timestamp} {s t : State} (hexec : exec (.append bit now) s = .next t)
    {p : Snapshot} (hready : t.result.frameReady = some p) :
    t.cnt = t.config.expectedWidth ∧ p = ⟨t.sr, t.cnt.toNat⟩ := by
  obtain hfull | hpartial := eq_or_ne s.cnt s.config.expectedWidth
  · cases (exec_append_of_full s bit now hfull).symm.trans hexec
    exact (State.frameReadySignal_eq_some_iff _ p).1 hready
  · cases (exec_append_of_not_full s bit now hpartial).symm.trans hexec
    exact (State.frameReadySignal_eq_some_iff _ p).1 hready

/-- A CHECK_TIMEOUT that returns `frame_ready` has cleared the buffer. -/
theorem exec_checkTimeout_frameReady {now : Timestamp} {s t : State} (hexec : exec (.checkTimeout now) s = .next t)
    {p : Snapshot} (hready : t.result.frameReady = some p) : t.BufferEmpty := by
  obtain ⟨-, h⟩ | ⟨-, -, h⟩ | ⟨-, -, h⟩ := exec_checkTimeout_cases s now
  · cases h.symm.trans hexec
    cases hready
  · cases h.symm.trans hexec
    exact ⟨rfl, rfl, rfl, rfl⟩
  · cases h.symm.trans hexec
    cases hready

/-- Settles O50: the APPEND leaves the frame in a full buffer, the CHECK_TIMEOUT leaves an empty one. -/
theorem frameReadyAndTheCommandsAfterIt : Obligations.FrameReadyAndTheCommandsAfterIt := by
  refine fun s hinv => ⟨fun bit now => ?_, fun now => ?_⟩
  · obtain ⟨t, hexec⟩ := exec_completes (.append bit now) s
    obtain ⟨hconfig, -⟩ := exec_sameSetting hexec
    refine ⟨t, hexec, fun p hready => ?_⟩
    obtain ⟨hfull, rfl⟩ := exec_append_frameReady hexec hready
    rw [← hconfig]
    exact ⟨exec_decode_of_full hfull, exec_append_of_full_events hfull⟩
  · obtain ⟨t, hexec⟩ := exec_completes (.checkTimeout now) s
    obtain ⟨hconfig, -⟩ := exec_sameSetting hexec
    refine ⟨t, hexec, fun p hready => ?_⟩
    obtain ⟨hsr, hcnt, hlu, hvalid⟩ := exec_checkTimeout_frameReady hexec hready
    rw [← hconfig]
    exact ⟨exec_decode_of_empty hcnt (hconfig ▸ hinv.width_pos), _, exec_reset t, hsr.symm, hcnt.symm, hlu.symm,
      hvalid.symm⟩

/-! ### Ticks and edges -/

/-- A tick on a timed-out buffer clears it and emits one event (R106). -/
theorem exec_tick_of_timedOut {now : Timestamp} {s : State} (hout : s.timedOut now = true) :
    ∃ u, exec (.tick now) s = .next u ∧ u.BufferEmpty ∧ u.events.length = 1 := by
  obtain hfull | hpartial := eq_or_ne s.cnt s.config.expectedWidth
  · exact ⟨_, exec_tick_of_full s hout hfull, ⟨rfl, rfl, rfl, rfl⟩, rfl⟩
  · exact ⟨_, exec_tick_of_partial s hout hpartial, ⟨rfl, rfl, rfl, rfl⟩, rfl⟩

/-- Settles O51: the first tick only empties the outputs, so that the second meets the same buffer. -/
theorem tickFlushesWithinOnePeriod : Obligations.TickFlushesWithinOnePeriod := by
  intro first second period s _ hcnt hperiod hearly hlate
  have hfirst := exec_tick_of_not_timedOut s ((s.timedOut_eq_false_iff first).2 (.inr hearly))
  have hout : s.beginCommand.timedOut second = true := (s.timedOut_iff second).2 ⟨hcnt, hlate⟩
  obtain ⟨u, hsecond, hempty, hone⟩ := exec_tick_of_timedOut hout
  exact ⟨_, u, hfirst, rfl, hsecond, hempty, hone, by omega⟩

/-- Settles O39: the tick clears the partial buffer, and the edge then starts a new one; the edge first makes the
buffer young again, so that the tick does nothing. -/
theorem edgeAndTickDoNotCommute : Obligations.EdgeAndTickDoNotCommute := by
  intro line now s _ hcnt hless hlate haccept
  have hpartial : s.cnt ≠ s.config.expectedWidth := by bv_omega
  have hroom : s.cnt + 1 ≠ s.config.expectedWidth := by bv_omega
  have hzero : (0 : BitCount) ≠ s.config.expectedWidth := by bv_omega
  have hone : (0 + 1 : BitCount) ≠ s.config.expectedWidth := by bv_omega
  have hout := (s.timedOut_iff now).2 ⟨hcnt, hlate⟩
  have hyoung : ∀ u : State, u.lu = now → u.timedOut now = false := by
    intro u hlu
    rw [State.timedOut_eq_false_iff, hlu]
    exact .inr (Nat.le_add_right _ _)
  exact ⟨⟨_, _, exec_tick_of_partial s hout hpartial, exec_edge_of_room haccept hzero hone, rfl, rfl⟩,
    ⟨_, _, exec_edge_of_room haccept hpartial hroom, exec_tick_of_not_timedOut _ (hyoung _ rfl), rfl, rfl, rfl, rfl⟩⟩

/-! ### The debounce memory (10_state.md section 3) -/

/-- Settles O48: which branch a command other than EDGE takes depends on the buffer, the times and the configuration,
and no branch reads or writes the debounce memory. -/
theorem onlyEdgeTouchesTheDebounceMemory : Obligations.OnlyEdgeTouchesTheDebounceMemory := by
  intro i s le leValid hi
  cases i with
  | append bit now =>
    obtain hfull | hpartial := eq_or_ne s.cnt s.config.expectedWidth
    · exact ⟨_, exec_append_of_full s bit now hfull, rfl, rfl, exec_append_of_full _ bit now hfull⟩
    · exact ⟨_, exec_append_of_not_full s bit now hpartial, rfl, rfl, exec_append_of_not_full _ bit now hpartial⟩
  | checkTimeout now =>
    cases hout : s.timedOut now with
    | false => exact ⟨_, exec_checkTimeout_of_not_timedOut s hout, rfl, rfl, exec_checkTimeout_of_not_timedOut _ hout⟩
    | true =>
      obtain hfull | hpartial := eq_or_ne s.cnt s.config.expectedWidth
      · exact ⟨_, exec_checkTimeout_of_full s hout hfull, rfl, rfl, exec_checkTimeout_of_full _ hout hfull⟩
      · exact ⟨_, exec_checkTimeout_of_partial s hout hpartial, rfl, rfl, exec_checkTimeout_of_partial _ hout hpartial⟩
  | reset => exact ⟨_, exec_reset s, rfl, rfl, exec_reset _⟩
  | decode => exact ⟨_, exec_decode_emits s, rfl, rfl, exec_decode_emits _⟩
  | edge line level ts => exact absurd rfl (hi line level ts)
  | tick now =>
    cases hout : s.timedOut now with
    | false => exact ⟨_, exec_tick_of_not_timedOut s hout, rfl, rfl, exec_tick_of_not_timedOut _ hout⟩
    | true =>
      obtain hfull | hpartial := eq_or_ne s.cnt s.config.expectedWidth
      · exact ⟨_, exec_tick_of_full s hout hfull, rfl, rfl, exec_tick_of_full _ hout hfull⟩
      · exact ⟨_, exec_tick_of_partial s hout hpartial, rfl, rfl, exec_tick_of_partial _ hout hpartial⟩

end Sys2Proof.Machine
end

section
/-! PROOFS. The invariant (10_state.md sections 2 and 3): each operation on the state keeps it, hence every command,
hence every step. -/

namespace Sys2Proof.Machine

section Operations

variable {s : State} (hinv : s.Inv)
include hinv

theorem State.Inv.emit (e : Event) : (s.emit e).Inv := hinv

theorem State.Inv.beginCommand : s.beginCommand.Inv := hinv

theorem State.Inv.emitIncomplete (p : Option Snapshot) : (s.emitIncomplete p).Inv := by
  cases p with
  | none => exact hinv
  | some p => exact hinv

theorem State.Inv.clearBuffer : s.clearBuffer.Inv := by
  obtain ⟨hlegal, -, hedge⟩ := hinv
  exact ⟨hlegal, ⟨Nat.zero_le _, Nat.one_pos, rfl, fun _ => rfl⟩, hedge⟩

theorem State.Inv.setLastEdge (ts : Timestamp) : (s.setLastEdge ts).Inv := by
  obtain ⟨hlegal, hbuffer, -⟩ := hinv
  exact ⟨hlegal, hbuffer, nofun⟩

theorem State.Inv.startBuffer (bit : Bit) (now : Timestamp) : (s.startBuffer bit now).Inv := by
  have hpos := hinv.width_pos
  obtain ⟨hlegal, -, hedge⟩ := hinv
  have hfits : ((BitVec.ofBool bit.code).setWidth 34).toNat < 2 ^ 1 := by
    cases bit with
    | zero => decide
    | one => decide
  exact ⟨hlegal, ⟨hpos, hfits, rfl, nofun⟩, hedge⟩

theorem State.Inv.shiftIn (hpartial : s.cnt ≠ s.config.expectedWidth) (bit : Bit) (now : Timestamp) :
    (s.shiftIn bit now).Inv := by
  obtain ⟨hlt, hle⟩ := hinv.double_add_lt hpartial bit
  obtain ⟨hlegal, hbuffer, hedge⟩ := hinv
  have hsucc := hbuffer.cnt_succ_toNat hpartial
  have hfits : ((s.sr <<< 1) ||| (BitVec.ofBool bit.code).setWidth 34).toNat < 2 ^ (s.cnt + 1).toNat := by
    rwa [hsucc, shift_eq_double_add, BitVec.toNat_ofNat, Nat.mod_eq_of_lt (hlt.trans_le hle)]
  have hnonempty : true = decide (0 < (s.cnt + 1).toNat) := by
    rw [hsucc, decide_eq_true (Nat.succ_pos _)]
  exact ⟨hlegal, ⟨hbuffer.cnt_succ_toNat_le hpartial, hfits, hnonempty, nofun⟩, hedge⟩

theorem appendBit_inv (bit : Bit) (now : Timestamp) : (appendBit bit now s).1.Inv := by
  obtain ⟨-, h⟩ | ⟨hpartial, h⟩ := appendBit_cases s bit now
  · rw [h]; exact hinv.startBuffer bit now
  · rw [h]; exact hinv.shiftIn hpartial bit now

theorem checkTimeout_inv (now : Timestamp) : (checkTimeout now s).1.Inv := by
  unfold checkTimeout
  split
  · exact hinv.clearBuffer
  · exact hinv

end Operations

theorem issueDirectly_inv {p : State × Result} (hinv : p.1.Inv) : (issueDirectly p).Inv :=
  hinv.emitIncomplete p.2.incomplete

theorem finishTick_inv {p : State × Result} (hinv : p.1.Inv) : (finishTick p).Inv := by
  obtain ⟨u, frameReady, discarded⟩ := p
  cases frameReady with
  | none => exact hinv.emitIncomplete discarded
  | some q => rw [finishTick_frame]; exact (hinv.emitIncomplete discarded).emit _

theorem finishEdge_inv {p : State × Result} (hinv : p.1.Inv) : (finishEdge p).Inv := by
  obtain ⟨u, frameReady, discarded⟩ := p
  cases frameReady with
  | none => exact hinv.emitIncomplete discarded
  | some q => rw [finishEdge_frame]; exact ((hinv.emitIncomplete discarded).emit _).clearBuffer

theorem acceptEdge_inv {s : State} (hinv : s.Inv) (line : Line) (ts : Timestamp) : (acceptEdge line ts s).Inv :=
  finishEdge_inv (appendBit_inv ((hinv.setLastEdge ts).emit _) _ ts)

/-- Every command keeps the invariant. -/
theorem exec_inv {i : Instr} {s t : State} (hinv : s.Inv) (hexec : exec i s = .next t) : t.Inv := by
  have hbegin := hinv.beginCommand
  cases i with
  | append bit now => cases hexec; exact issueDirectly_inv (appendBit_inv hbegin bit now)
  | checkTimeout now => cases hexec; exact issueDirectly_inv (checkTimeout_inv hbegin now)
  | reset => cases hexec; exact hbegin.clearBuffer
  | decode => cases (exec_decode_emits s).symm.trans hexec; exact hbegin.emit _
  | edge line level ts =>
    cases level with
    | high => cases hexec; exact hbegin
    | low =>
      cases hguard : s.debounceAccepts ts with
      | false => cases (exec_edge_low_of_dropped s line hguard).symm.trans hexec; exact hbegin
      | true => cases (exec_edge_low_of_accepted line hguard).symm.trans hexec; exact acceptEdge_inv hbegin line ts
  | tick now => cases hexec; exact finishTick_inv (checkTimeout_inv hbegin now)

/-- Settles O54: an idle step only empties the outputs, and a command keeps the invariant. -/
theorem everyStepKeepsTheInvariant : Obligations.EveryStepKeepsTheInvariant := by
  intro s t hinv hstep
  obtain ⟨-, rfl⟩ | ⟨w, rest, i, -, -, hexec⟩ := step_next_cases hstep
  · exact hinv
  · have hrest : State.Inv { s with trace := rest } := hinv
    exact exec_inv hrest hexec

end Sys2Proof.Machine
end

section
/-! PROOFS. Runs over traces of transactions (42_frontend_controller.md section 5): what one transaction does to the
fullness of the buffer and to the number of its bits, and from these the statements about traces of any length. -/

namespace Sys2Proof.Machine

/-! ### One step of a trace of transactions -/

theorem wordSatisfies_iff {p : Instr → Bool} {w : CommandWord} :
    wordSatisfies p w = true ↔ ∃ i, decodeWord w = .ok i ∧ p i = true := by
  unfold wordSatisfies
  cases decodeWord w with
  | ok i => simp
  | error e => simp

/-- Of a good state with a trace of transactions, the next step is idle or runs a transaction. -/
theorem step_of_transactions {s : State} (hinv : s.Inv) (htrans : transactionsOnly s.trace = true) :
    ∃ t, step s = .next t ∧ t.Inv ∧ t.config = s.config ∧ t.trace = s.trace.tail ∧ transactionsOnly t.trace = true ∧
      (t = s.beginCommand ∨ ∃ i, isTransaction i = true ∧ exec i { s with trace := s.trace.tail } = .next t) := by
  have hrest : State.Inv { s with trace := s.trace.tail } := hinv
  obtain ⟨hlegal, -⟩ := hinv
  cases htrace : s.trace with
  | nil => exact ⟨_, step_of_idle hlegal htrace, hrest, rfl, htrace, by simp [htrace, transactionsOnly], .inl rfl⟩
  | cons w rest =>
    rw [htrace, List.tail_cons] at hrest
    obtain ⟨hw, htail⟩ : wordSatisfies isTransaction w = true ∧ transactionsOnly rest = true := by
      simpa [htrace, transactionsOnly] using htrans
    obtain ⟨i, hdecode, hi⟩ := wordSatisfies_iff.1 hw
    obtain ⟨t, hexec⟩ := exec_completes i { s with trace := rest }
    obtain ⟨hconfig, htraceAfter⟩ := exec_sameSetting hexec
    refine ⟨t, (step_of_command hlegal htrace hdecode).trans hexec, exec_inv hrest hexec, hconfig, htraceAfter, ?_,
      .inr ⟨i, hi, hexec⟩⟩
    rw [htraceAfter]
    exact htail

/-! ### What one transaction does to the number of bits -/

/-- What a transaction can do to the count `n` of a buffer, and the events it emits with it, in a hardware configured
as `c`: the branches of EDGE (R104) and of TICK (R106). -/
inductive TransactionEffect (c : Configuration) (n : BitCount) : BitCount → List Event → Prop
  /-- A rising or dropped edge, or a tick with no timeout. -/
  | ignored : TransactionEffect c n n []
  /-- The edge's bit finds room. -/
  | takesBit {line : Line} {bit : Bit} (hpartial : n ≠ c.expectedWidth) (hroom : n + 1 ≠ c.expectedWidth) :
    TransactionEffect c n (n + 1) [.bit line bit]
  /-- The edge's bit completes a frame. -/
  | completes {line : Line} {bit : Bit} {v : FrameBits} (hlast : n + 1 = c.expectedWidth) :
    TransactionEffect c n 0 [.bit line bit, decodedWith c v c.expectedWidth.toNat]
  /-- The edge's bit replaces a full buffer. -/
  | overruns {line : Line} {bit : Bit} {v : FrameBits} (hfull : n = c.expectedWidth) (hwidth : c.expectedWidth ≠ 1) :
    TransactionEffect c n 1 [.bit line bit, .incomplete v n.toNat]
  /-- The edge's bit replaces a full buffer and is a frame of its own. -/
  | overrunsAndCompletes {line : Line} {bit : Bit} {v v' : FrameBits} (hfull : n = c.expectedWidth)
      (hwidth : c.expectedWidth = 1) :
    TransactionEffect c n 0 [.bit line bit, .incomplete v n.toNat, decodedWith c v' c.expectedWidth.toNat]
  /-- The tick decodes a timed-out full buffer. -/
  | decodes {v : FrameBits} (hfull : n = c.expectedWidth) :
    TransactionEffect c n 0 [decodedWith c v c.expectedWidth.toNat]
  /-- The tick discards a timed-out partial buffer. -/
  | discards {v : FrameBits} : TransactionEffect c n 0 [.incomplete v n.toNat]

theorem exec_edge_effect {line : Line} {ts : Timestamp} {s t : State} (haccept : s.debounceAccepts ts = true)
    (hexec : exec (.edge line .low ts) s = .next t) : TransactionEffect s.config s.cnt t.cnt t.events := by
  obtain hfull | hpartial := eq_or_ne s.cnt s.config.expectedWidth
  · obtain hwidth | hwidth := eq_or_ne s.config.expectedWidth 1
    · cases (exec_edge_of_overrun_completing haccept hfull hwidth).symm.trans hexec
      have hone : s.config.expectedWidth.toNat = 1 := congrArg BitVec.toNat hwidth
      have heffect := TransactionEffect.overrunsAndCompletes (line := line) (bit := bitOfLine line) (v := s.sr)
        (v' := (s.startBuffer (bitOfLine line) ts).sr) hfull hwidth
      rwa [hone] at heffect
    · cases (exec_edge_of_overrun haccept hfull hwidth).symm.trans hexec
      exact .overruns hfull hwidth
  · obtain hlast | hroom := eq_or_ne (s.cnt + 1) s.config.expectedWidth
    · cases (exec_edge_of_completing haccept hpartial hlast).symm.trans hexec
      exact .completes hlast
    · cases (exec_edge_of_room haccept hpartial hroom).symm.trans hexec
      exact .takesBit hpartial hroom

theorem exec_tick_effect {now : Timestamp} {s t : State} (hexec : exec (.tick now) s = .next t) :
    TransactionEffect s.config s.cnt t.cnt t.events := by
  cases hout : s.timedOut now with
  | false => cases (exec_tick_of_not_timedOut s hout).symm.trans hexec; exact .ignored
  | true =>
    obtain hfull | hpartial := eq_or_ne s.cnt s.config.expectedWidth
    · cases (exec_tick_of_full s hout hfull).symm.trans hexec
      rw [hfull]
      exact .decodes rfl
    · cases (exec_tick_of_partial s hout hpartial).symm.trans hexec
      exact .discards

/-- Everything a transaction can do. -/
theorem exec_transaction_effect {i : Instr} {s t : State} (hi : isTransaction i = true) (hexec : exec i s = .next t) :
    TransactionEffect s.config s.cnt t.cnt t.events := by
  cases i with
  | edge line level ts =>
    cases level with
    | high => cases hexec; exact .ignored
    | low =>
      cases hguard : s.debounceAccepts ts with
      | false => cases (exec_edge_low_of_dropped s line hguard).symm.trans hexec; exact .ignored
      | true => exact exec_edge_effect hguard hexec
  | tick now => exact exec_tick_effect hexec
  | append bit now => cases hi
  | checkTimeout now => cases hi
  | reset => cases hi
  | decode => cases hi

/-- A buffer that is not full is not full after the transaction (section 5 (a)). -/
theorem TransactionEffect.not_full {c : Configuration} {n n' : BitCount} {events : List Event}
    (h : TransactionEffect c n n' events) (hlt : n.toNat < c.expectedWidth.toNat) :
    n'.toNat < c.expectedWidth.toNat := by
  have hzero : (0 : BitCount).toNat < c.expectedWidth.toNat := Nat.zero_lt_of_lt hlt
  cases h with
  | ignored => exact hlt
  | takesBit hpartial hroom => bv_omega
  | completes => exact hzero
  | overruns hfull => exact absurd (congrArg BitVec.toNat hfull) hlt.ne
  | overrunsAndCompletes => exact hzero
  | decodes => exact hzero
  | discards => exact hzero

/-- The outcome of the Decode of a completed frame accounts for its `W` bits. -/
theorem eventReportedBits_decodedWith (c : Configuration) (v : FrameBits) :
    eventReportedBits (decodedWith c v c.expectedWidth.toNat) = c.expectedWidth.toNat := by
  rw [decodedWith]
  obtain ⟨hne, -⟩ | ⟨-, -, -, -, h⟩ | ⟨-, -, h⟩ :=
    decodeFrame_cases v c.expectedWidth.toNat c.expectedWidth.toNat c.degradedMode
  · exact absurd rfl hne
  · rw [h]; rfl
  · rw [h]; rfl

/-! ### The counts of a list of events, event by event -/

theorem reportedBits_cons (e : Event) (events : List Event) :
    reportedBits (e :: events) = eventReportedBits e + reportedBits events := rfl

theorem acceptedBits_nil : acceptedBits [] = 0 := rfl
theorem reportedBits_nil : reportedBits [] = 0 := rfl
theorem eventAcceptedBits_bit (line : Line) (bit : Bit) : eventAcceptedBits (.bit line bit) = 1 := rfl
theorem eventReportedBits_bit (line : Line) (bit : Bit) : eventReportedBits (.bit line bit) = 0 := rfl
theorem eventAcceptedBits_incomplete (v : FrameBits) (n : Nat) : eventAcceptedBits (.incomplete v n) = 0 := rfl
theorem eventReportedBits_incomplete (v : FrameBits) (n : Nat) : eventReportedBits (.incomplete v n) = n := rfl

/-- A transaction accepts as many bits as it adds to the buffer and reports (section 5 (c)). -/
theorem TransactionEffect.conserves {c : Configuration} {n n' : BitCount} {events : List Event}
    (h : TransactionEffect c n n' events) (hle : n.toNat ≤ c.expectedWidth.toNat)
    (hwidth : c.expectedWidth.toNat ≤ 34) :
    n.toNat + acceptedBits events = n'.toNat + reportedBits events := by
  have hzero : (0 : BitCount).toNat = 0 := rfl
  have hone : (1 : BitCount).toNat = 1 := rfl
  cases h <;>
    simp only [acceptedBits_cons, reportedBits_cons, acceptedBits_nil, reportedBits_nil, eventAcceptedBits_bit,
      eventReportedBits_bit, eventAcceptedBits_incomplete, eventReportedBits_incomplete, eventAcceptedBits_decodedWith,
      eventReportedBits_decodedWith, hzero, hone]
  case takesBit => bv_omega
  case completes hlast => bv_omega
  case overruns => omega
  case overrunsAndCompletes hfull hwidth => bv_omega
  case decodes hfull => bv_omega
  case discards => omega

/-! ### The statements of section 5 -/

/-- Settles O55: by induction on the number of steps; an idle step leaves the buffer, a transaction leaves it not full,
and of the commands only DECODE, which is none, reports FormatMismatch. -/
theorem transactionsNeverLeaveAFullBuffer : Obligations.TransactionsNeverLeaveAFullBuffer := by
  intro k
  induction k with
  | zero => exact fun s hinv hlt _ => ⟨s, rfl, hinv, hlt, rfl, nofun⟩
  | succ k ih =>
    intro s hinv hlt htrans
    obtain ⟨t, hstep, htinv, hconfig, htrace, httrans, hcase⟩ := step_of_transactions hinv htrans
    have hone : t.cnt.toNat < t.config.expectedWidth.toNat ∧ NoFormatMismatch t.events := by
      rw [hconfig]
      obtain rfl | ⟨i, hi, hexec⟩ := hcase
      · exact ⟨hlt, nofun⟩
      · have hnot : i ≠ .decode := by rintro rfl; cases hi
        obtain ⟨u, hu, hno⟩ := exec_noFormatMismatch hnot { s with trace := s.trace.tail }
        cases hexec.symm.trans hu
        exact ⟨(exec_transaction_effect hi hexec).not_full hlt, hno⟩
    obtain ⟨htlt, hno⟩ := hone
    obtain ⟨u, hrun, huinv, hult, hutrace, hunone⟩ := ih t htinv htlt httrans
    refine ⟨u, (run_succ k hstep).trans hrun, huinv, hult, by rw [hutrace, htrace, List.drop_tail], fun n w hmem => ?_⟩
    rw [eventsAlong_succ k hstep, List.mem_append] at hmem
    exact hmem.elim (hno n w) (hunone n w)

/-- Settles O56: by induction on the number of steps; an idle step has no events, and a transaction conserves the number
of bits. -/
theorem numberOfAcceptedBitsIsConserved : Obligations.NumberOfAcceptedBitsIsConserved := by
  intro k
  induction k with
  | zero => exact fun s _ _ => ⟨s, rfl, rfl⟩
  | succ k ih =>
    intro s hinv htrans
    obtain ⟨t, hstep, htinv, -, -, httrans, hcase⟩ := step_of_transactions hinv htrans
    obtain ⟨u, hrun, hlater⟩ := ih t htinv httrans
    have hone : s.cnt.toNat + acceptedBits t.events = t.cnt.toNat + reportedBits t.events := by
      obtain rfl | ⟨i, hi, hexec⟩ := hcase
      · rfl
      · obtain ⟨hlegal, ⟨hle, -⟩, -⟩ := hinv
        obtain ⟨-, hwidth⟩ := (configLegal_iff s.config).1 hlegal
        exact (exec_transaction_effect hi hexec).conserves hle hwidth
    refine ⟨u, (run_succ k hstep).trans hrun, ?_⟩
    rw [eventsAlong_succ k hstep, acceptedBits_append, reportedBits_append]
    omega

end Sys2Proof.Machine
end

section
/-! PROOFS. Monotonic time (70_reset_and_hazards.md R147): a command writes to `LU` and `LE` no other time than its own,
so neither is ahead of what comes later. -/

namespace Sys2Proof.Machine

/-! ### Which times a command writes -/

/-- `LU` is kept, cleared or set to the command's time. -/
theorem lu_of_exec {i : Instr} {s t : State} (hexec : exec i s = .next t) :
    t.lu = s.lu ∨ t.lu = 0 ∨ commandTime i = some t.lu := by
  obtain ⟨u, hu, hcase⟩ := bufferIsMutatedOnlyByAppendAndClear i s
  cases hexec.symm.trans hu
  obtain ⟨-, -, hlu, -⟩ | ⟨-, -, -, hlu, -⟩ | ⟨bit, now, rfl | ⟨line, rfl⟩, rfl, -⟩ := hcase
  · exact .inl hlu
  · exact .inr (.inl hlu)
  · exact .inr (.inr rfl)
  · exact .inr (.inr rfl)

/-- `LE` is kept or set to the command's time. -/
theorem le_of_exec {i : Instr} {s t : State} (hexec : exec i s = .next t) :
    t.le = s.le ∨ commandTime i = some t.le := by
  by_cases hedge : ∃ line level ts, i = .edge line level ts
  · obtain ⟨line, level, ts, rfl⟩ := hedge
    cases level with
    | high => cases hexec; exact .inl rfl
    | low =>
      cases hguard : s.debounceAccepts ts with
      | false => cases (exec_edge_low_of_dropped s line hguard).symm.trans hexec; exact .inl rfl
      | true =>
        cases (exec_edge_low_of_accepted line hguard).symm.trans hexec
        obtain ⟨hle, -⟩ := acceptEdge_debounce line ts s.beginCommand
        exact .inr (by rw [hle, commandTime])
  · obtain ⟨u, hu, hle, -⟩ := onlyEdgeTouchesTheDebounceMemory i s s.le s.leValid
      fun line level ts h => hedge ⟨line, level, ts, h⟩
    cases hexec.symm.trans hu
    exact .inl hle

/-! ### Monotonic lists of commands -/

/-- The earliest time that may follow a command. -/
def earliestAfter (earliest : Timestamp) (i : Instr) : Timestamp := (commandTime i).getD earliest

theorem monotonicFrom_cons_iff {earliest : Timestamp} {i : Instr} {rest : List Instr} :
    monotonicFrom earliest (i :: rest) = true ↔
      earliest.toNat ≤ (earliestAfter earliest i).toNat ∧ monotonicFrom (earliestAfter earliest i) rest = true := by
  rw [monotonicFrom, earliestAfter]
  cases commandTime i with
  | none => simp
  | some t => simp

theorem le_of_monotonicFrom {earliest : Timestamp} {commands : List Instr}
    (h : monotonicFrom earliest commands = true) {i : Instr} (hi : i ∈ commands) {now : Timestamp}
    (hnow : commandTime i = some now) : earliest.toNat ≤ now.toNat := by
  induction commands generalizing earliest with
  | nil => cases hi
  | cons j rest ih =>
    obtain ⟨hle, hrest⟩ := monotonicFrom_cons_iff.1 h
    obtain rfl | hmem := List.mem_cons.1 hi
    · rwa [earliestAfter, hnow, Option.getD_some] at hle
    · exact hle.trans (ih hrest hmem)

/-- After a command neither register is ahead of the earliest time that may follow it. -/
theorem registers_le_earliestAfter {i : Instr} {s t : State} {earliest : Timestamp} (hexec : exec i s = .next t)
    (hearliest : earliest.toNat ≤ (earliestAfter earliest i).toNat) (hlu : s.lu.toNat ≤ earliest.toNat)
    (hle : s.le.toNat ≤ earliest.toNat) :
    t.lu.toNat ≤ (earliestAfter earliest i).toNat ∧ t.le.toNat ≤ (earliestAfter earliest i).toNat := by
  constructor
  · obtain h | h | h := lu_of_exec hexec
    · rw [h]; exact hlu.trans hearliest
    · rw [h]; exact Nat.zero_le _
    · rw [earliestAfter, h, Option.getD_some]
  · obtain h | h := le_of_exec hexec
    · rw [h]; exact hle.trans hearliest
    · rw [earliestAfter, h, Option.getD_some]

/-- Settles O57: by induction on the number of steps, with the earliest time moved on by each command. -/
theorem monotonicTimeStaysAheadOfTheRegisters : Obligations.MonotonicTimeStaysAheadOfTheRegisters := by
  intro k
  induction k with
  | zero =>
    intro s earliest commands _ _ hmono hlu hle
    refine ⟨s, rfl, fun i hi now hnow => ?_⟩
    have hlater := le_of_monotonicFrom hmono hi hnow
    exact ⟨hlu.trans hlater, hle.trans hlater⟩
  | succ k ih =>
    intro s earliest commands hlegal htrace hmono hlu hle
    cases commands with
    | nil =>
      obtain ⟨t, hrun, hlater⟩ := ih s.beginCommand earliest [] hlegal htrace rfl hlu hle
      exact ⟨t, (run_succ k (step_of_idle hlegal htrace)).trans hrun, nofun⟩
    | cons i rest =>
      obtain ⟨hearliest, hrest⟩ := monotonicFrom_cons_iff.1 hmono
      obtain ⟨t, hexec⟩ := exec_completes i { s with trace := rest.map encode }
      obtain ⟨hconfig, htraceAfter⟩ := exec_sameSetting hexec
      obtain ⟨hlu', hle'⟩ := registers_le_earliestAfter hexec hearliest hlu hle
      have hstep := (step_of_command hlegal htrace (encodedCommandDecodesToItself i)).trans hexec
      obtain ⟨u, hrun, hlater⟩ := ih t _ rest (hconfig ▸ hlegal) htraceAfter hrest hlu' hle'
      exact ⟨u, (run_succ k hstep).trans hrun, hlater⟩

end Sys2Proof.Machine
end

section
/-! PROOFS. Whole reads (40_accumulator.md section 5, 41_frame_decoder.md section 1, 42_frontend_controller.md): runs of
APPENDs and of pulses from a buffer that holds a given sequence, by induction on the commands. -/

namespace Sys2Proof.Machine

/-- A run goes on from the state that its first `m` steps reach (of any machine). -/
theorem run_add_of_next (M : Host.Core) {s t : M.State} (m n : Nat) (h : Host.Core.run M m s = .next t) :
    Host.Core.run M (m + n) s = Host.Core.run M n t := by
  induction m generalizing s with
  | zero => cases h; rw [Nat.zero_add]
  | succ m ih =>
    rw [Host.Core.run] at h
    cases hstep : M.step s with
    | next u =>
      rw [hstep] at h
      rw [Nat.succ_add, run_succ_of_next M (m + n) hstep, ih h]
    | fault r => rw [hstep] at h; cases h
    | refused r => rw [hstep] at h; cases h

theorem run_one {s t : State} (h : step s = .next t) : Host.Core.run Sys2Proof.core 1 s = .next t :=
  run_succ 0 h

/-! ### A buffer that holds a given sequence -/

/-- `SR` and `CNT` hold the sequence `bits` (R12). -/
abbrev State.Holds (s : State) (bits : List Bit) : Prop :=
  s.sr = BitVec.ofNat 34 (bitsValue bits) ∧ s.cnt = BitVec.ofNat 6 bits.length

/-- The state with the sequence `bits` in the buffer, the last bit taken at time `now`. -/
def State.withBits (s : State) (bits : List Bit) (now : Timestamp) : State :=
  { s with sr := BitVec.ofNat 34 (bitsValue bits), cnt := BitVec.ofNat 6 bits.length, lu := now, luValid := true }

/-- The empty buffer holds no bits. -/
theorem State.Inv.holds_nil {s : State} (hinv : s.Inv) (hcnt : s.cnt = 0) : s.Holds [] := by
  obtain ⟨hsr, -⟩ := hinv.bufferEmpty hcnt
  exact ⟨hsr, hcnt⟩

section Holding

variable {s : State} {bits : List Bit} (h : s.Holds bits)
include h

theorem State.Holds.shiftIn (bit : Bit) (now : Timestamp) : s.shiftIn bit now = s.withBits (bits ++ [bit]) now := by
  obtain ⟨hsr, hcnt⟩ := h
  have hvalue : BitVec.ofNat 34 (2 * s.sr.toNat + bit.code.toNat) = BitVec.ofNat 34 (bitsValue (bits ++ [bit])) := by
    rw [bitsValue_append_one, hsr]
    apply BitVec.eq_of_toNat_eq
    simp only [BitVec.toNat_ofNat]
    omega
  have hcount : s.cnt + 1 = BitVec.ofNat 6 (bits ++ [bit]).length := by
    rw [hcnt, List.length_append, List.length_singleton, BitVec.ofNat_add]
    rfl
  rw [State.shiftIn, State.withBits, shift_eq_double_add, hvalue, hcount]

theorem State.Holds.not_full (hlt : bits.length < s.config.expectedWidth.toNat) : s.cnt ≠ s.config.expectedWidth := by
  obtain ⟨-, hcnt⟩ := h
  have hwidth := s.config.expectedWidth.isLt
  intro hfull
  rw [← hfull, hcnt, BitVec.toNat_ofNat] at hlt
  omega

theorem State.Holds.cnt_succ_eq_iff (hlt : bits.length < s.config.expectedWidth.toNat) :
    s.cnt + 1 = s.config.expectedWidth ↔ bits.length + 1 = s.config.expectedWidth.toNat := by
  obtain ⟨-, hcnt⟩ := h
  have hwidth := s.config.expectedWidth.isLt
  rw [← BitVec.toNat_inj, hcnt, BitVec.toNat_add, BitVec.toNat_ofNat, Nat.mod_eq_of_lt (hlt.trans hwidth)]
  change (bits.length + 1) % 64 = _ ↔ _
  rw [Nat.mod_eq_of_lt (by omega)]

end Holding

theorem State.withBits_cnt_toNat {s : State} {bits : List Bit} (hle : bits.length ≤ s.config.expectedWidth.toNat)
    (now : Timestamp) : (s.withBits bits now).cnt.toNat = bits.length := by
  have hwidth := s.config.expectedWidth.isLt
  exact Nat.mod_eq_of_lt (hle.trans_lt hwidth)

theorem State.withBits_frameReadySignal {s : State} {bits : List Bit}
    (hle : bits.length ≤ s.config.expectedWidth.toNat) (now : Timestamp) :
    (s.withBits bits now).frameReadySignal = if bits.length = s.config.expectedWidth.toNat then
      some ⟨BitVec.ofNat 34 (bitsValue bits), bits.length⟩ else none := by
  have hcount := State.withBits_cnt_toNat hle now
  split
  case isTrue hfull =>
    rw [State.frameReadySignal_of_full _ (BitVec.eq_of_toNat_eq (hcount.trans hfull)), hcount]
    rfl
  case isFalse hpartial =>
    exact State.frameReadySignal_of_not_full _ fun hfull => hpartial (hcount.symm.trans (congrArg BitVec.toNat hfull))

/-! ### A run of APPENDs -/

/-- What the last of a run of APPENDs leaves when the buffer then holds `bits`: the trace `rest` is still to come. -/
def State.appended (s : State) (bits : List Bit) (now : Timestamp) (rest : List CommandWord) : State :=
  { s.withBits bits now with result := ⟨(s.withBits bits now).frameReadySignal, none⟩, events := [], trace := rest }

theorem step_append_of_holds {s : State} {bits : List Bit} {bit : Bit} {now : Timestamp} {rest : List CommandWord}
    (hlegal : configLegal s.config = true) (hholds : s.Holds bits) (hlt : bits.length < s.config.expectedWidth.toNat)
    (htrace : s.trace = encode (.append bit now) :: rest) : step s = .next (s.appended (bits ++ [bit]) now rest) := by
  have hshift := hholds.shiftIn bit now
  have hpartial : ({ s with trace := rest } : State).cnt ≠ s.config.expectedWidth := hholds.not_full hlt
  rw [step_of_command hlegal htrace (encodedCommandDecodesToItself _), exec_append_of_not_full _ bit now hpartial,
    State.appended, ← hshift]
  rfl

/-- From a buffer that holds `bits`, APPENDs that do not fill more than the buffer add theirs at the end. -/
theorem run_appends (earlier : List (Bit × Timestamp)) (last : Bit × Timestamp) (rest : List CommandWord) {s : State}
    {bits : List Bit} (hlegal : configLegal s.config = true) (hholds : s.Holds bits)
    (hle : bits.length + earlier.length + 1 ≤ s.config.expectedWidth.toNat)
    (htrace : s.trace = (earlier ++ [last]).map (fun p => encode (.append p.1 p.2)) ++ rest) :
    Host.Core.run Sys2Proof.core (earlier.length + 1) s =
      .next (s.appended (bits ++ (earlier ++ [last]).map Prod.fst) last.2 rest) := by
  induction earlier generalizing s bits with
  | nil => exact run_one (step_append_of_holds hlegal hholds hle htrace)
  | cons p earlier ih =>
    have hlt : bits.length < s.config.expectedWidth.toNat := by omega
    have hstep := step_append_of_holds hlegal hholds hlt htrace
    have hroom : (bits ++ [p.1]).length + earlier.length + 1 ≤ s.config.expectedWidth.toNat := by
      rw [List.length_append, List.length_singleton]
      rw [List.length_cons] at hle
      omega
    have hrun := ih (s := s.appended (bits ++ [p.1]) p.2 _) (bits := bits ++ [p.1]) hlegal ⟨rfl, rfl⟩ hroom rfl
    rw [List.append_assoc] at hrun
    exact (run_succ (earlier.length + 1) hstep).trans hrun

/-- Settles O58: the run from the buffer that holds no bits. -/
theorem appendsAccumulateTheSequence : Obligations.AppendsAccumulateTheSequence := by
  intro s earlier last rest hinv hcnt hle htrace
  have hlength : ((earlier ++ [last]).map Prod.fst).length = earlier.length + 1 := by simp
  have hholds := hinv.holds_nil hcnt
  obtain ⟨hlegal, -⟩ := hinv
  rw [run_appends earlier last rest hlegal hholds (by simpa using hle) htrace, List.nil_append, State.appended,
    State.withBits_frameReadySignal (hlength ▸ hle), hlength, State.withBits, hlength]

theorem step_decode {s : State} {rest : List CommandWord} (hlegal : configLegal s.config = true)
    (htrace : s.trace = encode .decode :: rest) :
    ∃ t, step s = .next t ∧ t.events = [decodedWith s.config s.sr s.cnt.toNat] ∧ t.cnt = s.cnt :=
  ⟨_, (step_of_command hlegal htrace (encodedCommandDecodesToItself _)).trans (exec_decode_emits _), rfl, rfl⟩

/-- Settles O59: the run of APPENDs leaves the sequence in a full buffer, whose Decode the DECODE then emits. -/
theorem incrementalDecodeEqualsBatchDecode : Obligations.IncrementalDecodeEqualsBatchDecode := by
  intro s stamped rest hinv hcnt hlength htrace
  have hpos := hinv.width_pos
  have hholds := hinv.holds_nil hcnt
  obtain ⟨hlegal, -⟩ := hinv
  obtain rfl | ⟨earlier, last, rfl⟩ := stamped.eq_nil_or_concat'
  · rw [← hlength] at hpos
    cases hpos
  have hcount : (earlier ++ [last]).length = earlier.length + 1 := by simp
  have hbits : ((earlier ++ [last]).map Prod.fst).length = s.config.expectedWidth.toNat := by
    rw [List.length_map, hlength]
  have hrun := run_appends earlier last _ hlegal hholds (by simpa using (hcount ▸ hlength).le) htrace
  have hfull : ((s.withBits _ last.2).cnt).toNat = _ := State.withBits_cnt_toNat hbits.le last.2
  obtain ⟨t, hstep, hevents, hkept⟩ := step_decode (rest := rest)
    (s := s.appended ([] ++ (earlier ++ [last]).map Prod.fst) last.2 (encode .decode :: rest)) hlegal rfl
  refine ⟨t, ?_, hevents.trans ?_, hkept.trans (BitVec.eq_of_toNat_eq (hfull.trans hbits))⟩
  · rw [hcount, run_add_of_next Sys2Proof.core _ 1 hrun]
    exact run_one hstep
  · rw [decodeSequence, ← hfull]
    rfl

/-! ### A run of pulses -/

/-- The line of a pulse (R102). -/
def lineOfBit (bit : Bit) : Line := if bit = .zero then .data0 else .data1

theorem bitOfLine_lineOfBit (bit : Bit) : bitOfLine (lineOfBit bit) = bit := by
  cases bit with
  | zero => rfl
  | one => rfl

/-- What a pulse at time `t` leaves when its bit does not fill the buffer, which then holds `bits`. -/
def State.pulsed (s : State) (bits : List Bit) (bit : Bit) (t : Nat) (rest : List CommandWord) : State :=
  { s.withBits bits (BitVec.ofNat 64 t) with
    le := BitVec.ofNat 64 t
    leValid := true
    result := .absent
    events := [.bit (lineOfBit bit) bit]
    trace := rest }

/-- What the last pulse of the frame `bits` leaves. -/
def State.frameRead (s : State) (bits : List Bit) (bit : Bit) (t : Nat) (rest : List CommandWord) : State :=
  { s.clearBuffer with
    le := BitVec.ofNat 64 t
    leValid := true
    result := .absent
    events := [.bit (lineOfBit bit) bit,
      outcomeEvent (decodeSequence bits s.config.expectedWidth.toNat s.config.degradedMode)]
    trace := rest }

section Pulse

variable {s : State} {bits : List Bit} {bit : Bit} {t : Nat} {rest : List CommandWord}

theorem step_pulse (hlegal : configLegal s.config = true) (htrace : s.trace = encode (pulse bit t) :: rest) :
    step s = exec (.edge (lineOfBit bit) .low (BitVec.ofNat 64 t)) { s with trace := rest } := by
  rw [step_of_command hlegal htrace (encodedCommandDecodesToItself _), pulse_eq_edge]
  rfl

variable (hlegal : configLegal s.config = true) (hholds : s.Holds bits)
  (haccept : s.debounceAccepts (BitVec.ofNat 64 t) = true) (htrace : s.trace = encode (pulse bit t) :: rest)
include hlegal hholds haccept htrace

theorem step_pulse_of_room (hroom : bits.length + 1 < s.config.expectedWidth.toNat) :
    step s = .next (s.pulsed (bits ++ [bit]) bit t rest) := by
  have hlt : bits.length < s.config.expectedWidth.toNat := by omega
  have hpartial := hholds.not_full hlt
  have hnotLast := mt (hholds.cnt_succ_eq_iff hlt).1 hroom.ne
  rw [step_pulse hlegal htrace, exec_edge_of_room (s := { s with trace := rest }) haccept hpartial hnotLast,
    bitOfLine_lineOfBit, State.pulsed, ← hholds.shiftIn]
  rfl

theorem step_pulse_of_last (hlast : bits.length + 1 = s.config.expectedWidth.toNat) :
    step s = .next (s.frameRead (bits ++ [bit]) bit t rest) := by
  have hlt : bits.length < s.config.expectedWidth.toNat := by omega
  have hpartial := hholds.not_full hlt
  have hcompletes := (hholds.cnt_succ_eq_iff hlt).2 hlast
  have hlength : (bits ++ [bit]).length = s.config.expectedWidth.toNat := by simpa using hlast
  have hvalue : (s.shiftIn bit (BitVec.ofNat 64 t)).sr = BitVec.ofNat 34 (bitsValue (bits ++ [bit])) := by
    rw [hholds.shiftIn]
    rfl
  rw [step_pulse hlegal htrace, exec_edge_of_completing (s := { s with trace := rest }) haccept hpartial hcompletes,
    bitOfLine_lineOfBit, State.frameRead, decodeSequence, hlength, ← hvalue]
  rfl

end Pulse

/-- A pulse at least the debounce interval after another is accepted. -/
theorem pulsed_debounceAccepts (s : State) (bits : List Bit) (bit : Bit) {t d : Nat} (rest : List CommandWord)
    (hinterval : s.config.debounceInterval.toNat ≤ d) (hfits : t + d < 2 ^ 64) :
    (s.pulsed bits bit t rest).debounceAccepts (BitVec.ofNat 64 (t + d)) = true := by
  rw [State.debounceAccepts_iff]
  right
  change (BitVec.ofNat 64 t).toNat + s.config.debounceInterval.toNat ≤ _
  rw [BitVec.toNat_ofNat, BitVec.toNat_ofNat, Nat.mod_eq_of_lt hfits, Nat.mod_eq_of_lt (by omega)]
  omega

/-- From a buffer that holds `bits`, pulses that complete the frame read it. -/
theorem run_pulses (earlier : List Bit) (last : Bit) (d : Nat) (rest : List CommandWord) {s : State} {bits : List Bit}
    {t0 : Nat} (hlegal : configLegal s.config = true) (hholds : s.Holds bits)
    (hwidth : bits.length + earlier.length + 1 = s.config.expectedWidth.toNat)
    (hinterval : s.config.debounceInterval.toNat ≤ d) (haccept : s.debounceAccepts (BitVec.ofNat 64 t0) = true)
    (hfits : t0 + earlier.length * d < 2 ^ 64)
    (htrace : s.trace = (AsmLine.bits (earlier ++ [last]) t0 d).expand.map encode ++ rest) :
    Host.Core.run Sys2Proof.core (earlier.length + 1) s =
      .next (s.frameRead (bits ++ (earlier ++ [last])) last (t0 + earlier.length * d) rest) := by
  induction earlier generalizing s bits t0 with
  | nil =>
    rw [List.length_nil, Nat.zero_mul, Nat.add_zero]
    exact run_one (step_pulse_of_last hlegal hholds haccept htrace hwidth)
  | cons b earlier ih =>
    rw [List.length_cons] at hwidth hfits
    have htime : t0 + (earlier.length + 1) * d = t0 + d + earlier.length * d := by rw [Nat.succ_mul]; omega
    have hstep := step_pulse_of_room hlegal hholds haccept htrace (by omega)
    have hnext := pulsed_debounceAccepts s (bits ++ [b]) b (t := t0)
      ((AsmLine.bits (earlier ++ [last]) (t0 + d) d).expand.map encode ++ rest) hinterval (by omega)
    have hlength : (bits ++ [b]).length + earlier.length + 1 = s.config.expectedWidth.toNat := by
      rw [List.length_append, List.length_singleton]
      omega
    have hrun := ih (s := s.pulsed (bits ++ [b]) b t0 _) (bits := bits ++ [b]) hlegal ⟨rfl, rfl⟩ hlength hinterval hnext
      (by omega) rfl
    rw [List.append_assoc] at hrun
    rw [List.length_cons, htime]
    exact (run_succ (earlier.length + 1) hstep).trans hrun

/-- The words of a BITS line, and that its last time fits. -/
theorem bits_words_eq_some {bits : List Bit} {last : Bit} {t0 d : Nat} {words : List CommandWord}
    (h : AsmLine.words (.bits (bits ++ [last]) t0 d) = some words) :
    t0 + bits.length * d < 2 ^ 64 ∧ words = (AsmLine.bits (bits ++ [last]) t0 d).expand.map encode := by
  rw [AsmLine.words, Option.ite_none_right_eq_some, Option.some_inj] at h
  obtain ⟨hwf, hwords⟩ := h
  exact ⟨by simpa [AsmLine.wf, timeFits, Config.tsWidth] using hwf, hwords.symm⟩

/-- Settles O60: the run of pulses from the buffer that holds no bits. -/
theorem cardReadEmitsItsFrame : Obligations.CardReadEmitsItsFrame := by
  intro s bits lastBit t0 d words rest hinv hcnt hwidth hinterval haccept hwords htrace
  have hholds := hinv.holds_nil hcnt
  obtain ⟨hlegal, -⟩ := hinv
  obtain ⟨hfits, rfl⟩ := bits_words_eq_some hwords
  exact run_pulses bits lastBit d rest hlegal hholds (by simpa using hwidth) hinterval haccept hfits htrace

end Sys2Proof.Machine
end
